-- ==== Sys2Proof/Word.lean ====
section
/-! DEFINITION. The word types of the i8080 (00_scope.md R7, R8). -/

namespace Sys2Proof

/-- A byte: 8 bits, bit 0 the least significant (00_scope.md R8). -/
abbrev Byte := BitVec 8

/-- A word: 16 bits, the width of `SP`, `PC` and a memory address (00_scope.md R7). -/
abbrev Word := BitVec 16

end Sys2Proof
end

