-- ==== Sys2Proof/Syntax.lean ====
section
/-! DEFINITION. The instruction syntax: one constructor per row of opcode_table.json, in the
order of the rules that give their meanings (R121 to R256). The
operand bytes are arguments: `imm` and `port` are the second byte, `imm` and `addr` of 16 bits are byte 3 ++ byte 2 (R97).
After it, the codes of the encoding (R93 to R96) and the families of rows that share a rule. -/

namespace Sys2Proof

/-- The instructions of the i8080, one constructor per opcode byte, the illegal ones among them. -/
inductive Instr where
  | movBB
  | movBC
  | movBD
  | movBE
  | movBH
  | movBL
  | movBA
  | movCB
  | movCC
  | movCD
  | movCE
  | movCH
  | movCL
  | movCA
  | movDB
  | movDC
  | movDD
  | movDE
  | movDH
  | movDL
  | movDA
  | movEB
  | movEC
  | movED
  | movEE
  | movEH
  | movEL
  | movEA
  | movHB
  | movHC
  | movHD
  | movHE
  | movHH
  | movHL
  | movHA
  | movLB
  | movLC
  | movLD
  | movLE
  | movLH
  | movLL
  | movLA
  | movAB
  | movAC
  | movAD
  | movAE
  | movAH
  | movAL
  | movAA
  | movBM
  | movCM
  | movDM
  | movEM
  | movHM
  | movLM
  | movAM
  | movMB
  | movMC
  | movMD
  | movME
  | movMH
  | movML
  | movMA
  | mviB (imm : Byte)
  | mviC (imm : Byte)
  | mviD (imm : Byte)
  | mviE (imm : Byte)
  | mviH (imm : Byte)
  | mviL (imm : Byte)
  | mviA (imm : Byte)
  | mviM (imm : Byte)
  | lxiB (imm : Word)
  | lxiD (imm : Word)
  | lxiH (imm : Word)
  | lxiSP (imm : Word)
  | lda (addr : Word)
  | sta (addr : Word)
  | lhld (addr : Word)
  | shld (addr : Word)
  | ldaxB
  | ldaxD
  | staxB
  | staxD
  | xchg
  | addB
  | addC
  | addD
  | addE
  | addH
  | addL
  | addA
  | addM
  | adi (imm : Byte)
  | adcB
  | adcC
  | adcD
  | adcE
  | adcH
  | adcL
  | adcA
  | adcM
  | aci (imm : Byte)
  | subB
  | subC
  | subD
  | subE
  | subH
  | subL
  | subA
  | subM
  | sui (imm : Byte)
  | sbbB
  | sbbC
  | sbbD
  | sbbE
  | sbbH
  | sbbL
  | sbbA
  | sbbM
  | sbi (imm : Byte)
  | inrB
  | inrC
  | inrD
  | inrE
  | inrH
  | inrL
  | inrA
  | inrM
  | dcrB
  | dcrC
  | dcrD
  | dcrE
  | dcrH
  | dcrL
  | dcrA
  | dcrM
  | inxB
  | inxD
  | inxH
  | inxSP
  | dcxB
  | dcxD
  | dcxH
  | dcxSP
  | dadB
  | dadD
  | dadH
  | dadSP
  | daa
  | anaB
  | anaC
  | anaD
  | anaE
  | anaH
  | anaL
  | anaA
  | anaM
  | ani (imm : Byte)
  | xraB
  | xraC
  | xraD
  | xraE
  | xraH
  | xraL
  | xraA
  | xraM
  | xri (imm : Byte)
  | oraB
  | oraC
  | oraD
  | oraE
  | oraH
  | oraL
  | oraA
  | oraM
  | ori (imm : Byte)
  | cmpB
  | cmpC
  | cmpD
  | cmpE
  | cmpH
  | cmpL
  | cmpA
  | cmpM
  | cpi (imm : Byte)
  | rlc
  | rrc
  | ral
  | rar
  | cma
  | cmc
  | stc
  | jmp (addr : Word)
  | jnz (addr : Word)
  | jz (addr : Word)
  | jnc (addr : Word)
  | jc (addr : Word)
  | jpo (addr : Word)
  | jpe (addr : Word)
  | jp (addr : Word)
  | jm (addr : Word)
  | call (addr : Word)
  | cnz (addr : Word)
  | cz (addr : Word)
  | cnc (addr : Word)
  | cc (addr : Word)
  | cpo (addr : Word)
  | cpe (addr : Word)
  | cp (addr : Word)
  | cm (addr : Word)
  | ret
  | rnz
  | rz
  | rnc
  | rc
  | rpo
  | rpe
  | rp
  | rm
  | rst0
  | rst1
  | rst2
  | rst3
  | rst4
  | rst5
  | rst6
  | rst7
  | pchl
  | pushB
  | pushD
  | pushH
  | pushPSW
  | popPSW
  | popB
  | popD
  | popH
  | xthl
  | sphl
  | inPort (port : Byte)
  | outPort (port : Byte)
  | ei
  | di
  | hlt
  | nop
  | illegal08
  | illegal10
  | illegal18
  | illegal20
  | illegal28
  | illegal30
  | illegal38
  | illegalCB
  | illegalD9
  | illegalDD
  | illegalED
  | illegalFD
  deriving DecidableEq, Repr

/-- 3-bit register codes other than 6 (30_encoding.md R94). -/
inductive Reg8 where
  | b | c | d | e | h | l | a
  deriving DecidableEq, Repr

/-- 2-bit pair codes of LXI, INX, DCX and DAD (30_encoding.md R95). -/
inductive RegPair where
  | bc | de | hl | sp
  deriving DecidableEq, Repr

/-- 2-bit pair codes of PUSH and POP (30_encoding.md R95). -/
inductive StackPair where
  | bc | de | hl | psw
  deriving DecidableEq, Repr

/-- The pairs LDAX and STAX may name (30_encoding.md R95). -/
inductive IndirectPair where
  | bc | de
  deriving DecidableEq, Repr

/-- The 3-bit code of a register (30_encoding.md R94). -/
def Reg8.code : Reg8 → BitVec 3
  | .b => 0b000
  | .c => 0b001
  | .d => 0b010
  | .e => 0b011
  | .h => 0b100
  | .l => 0b101
  | .a => 0b111

/-- The 2-bit code of a pair (30_encoding.md R95). -/
def RegPair.code : RegPair → BitVec 2
  | .bc => 0b00
  | .de => 0b01
  | .hl => 0b10
  | .sp => 0b11

/-- The 2-bit code of a pair in PUSH and POP (30_encoding.md R95). -/
def StackPair.code : StackPair → BitVec 2
  | .bc => 0b00
  | .de => 0b01
  | .hl => 0b10
  | .psw => 0b11

/-- The pair as a code of RegPair. -/
def IndirectPair.toPair : IndirectPair → RegPair
  | .bc => .bc
  | .de => .de

/-- Condition codes (30_encoding.md R96). -/
inductive Cond where
  | nz | z | nc | c | po | pe | p | m
  deriving DecidableEq, Repr

/-- ALU operations (30_encoding.md R93). -/
inductive AluOp where
  | add | adc | sub | sbb | ana | xra | ora | cmp
  deriving DecidableEq, Repr

/-- The condition code (30_encoding.md R96). -/
def Cond.code : Cond → BitVec 3
  | .nz => 0b000
  | .z => 0b001
  | .nc => 0b010
  | .c => 0b011
  | .po => 0b100
  | .pe => 0b101
  | .p => 0b110
  | .m => 0b111

/-- The ALU operation code (30_encoding.md R93). -/
def AluOp.code : AluOp → BitVec 3
  | .add => 0b000
  | .adc => 0b001
  | .sub => 0b010
  | .sbb => 0b011
  | .ana => 0b100
  | .xra => 0b101
  | .ora => 0b110
  | .cmp => 0b111

/-- The opcode bytes without an instruction (30_encoding.md R101). -/
inductive IllegalByte where
  | x08 | x10 | x18 | x20 | x28 | x30 | x38 | xCB | xD9 | xDD | xED | xFD
  deriving DecidableEq, Repr

/-- The illegal opcode byte itself. -/
def IllegalByte.toByte : IllegalByte → Byte
  | .x08 => 0x08
  | .x10 => 0x10
  | .x18 => 0x18
  | .x20 => 0x20
  | .x28 => 0x28
  | .x30 => 0x30
  | .x38 => 0x38
  | .xCB => 0xCB
  | .xD9 => 0xD9
  | .xDD => 0xDD
  | .xED => 0xED
  | .xFD => 0xFD

/-- `MOV r1,r2`, both registers: the 49 rows of R121 (40_data_transfer.md). -/
def Instr.movRR : Reg8 → Reg8 → Instr
  | .b, .b => .movBB
  | .b, .c => .movBC
  | .b, .d => .movBD
  | .b, .e => .movBE
  | .b, .h => .movBH
  | .b, .l => .movBL
  | .b, .a => .movBA
  | .c, .b => .movCB
  | .c, .c => .movCC
  | .c, .d => .movCD
  | .c, .e => .movCE
  | .c, .h => .movCH
  | .c, .l => .movCL
  | .c, .a => .movCA
  | .d, .b => .movDB
  | .d, .c => .movDC
  | .d, .d => .movDD
  | .d, .e => .movDE
  | .d, .h => .movDH
  | .d, .l => .movDL
  | .d, .a => .movDA
  | .e, .b => .movEB
  | .e, .c => .movEC
  | .e, .d => .movED
  | .e, .e => .movEE
  | .e, .h => .movEH
  | .e, .l => .movEL
  | .e, .a => .movEA
  | .h, .b => .movHB
  | .h, .c => .movHC
  | .h, .d => .movHD
  | .h, .e => .movHE
  | .h, .h => .movHH
  | .h, .l => .movHL
  | .h, .a => .movHA
  | .l, .b => .movLB
  | .l, .c => .movLC
  | .l, .d => .movLD
  | .l, .e => .movLE
  | .l, .h => .movLH
  | .l, .l => .movLL
  | .l, .a => .movLA
  | .a, .b => .movAB
  | .a, .c => .movAC
  | .a, .d => .movAD
  | .a, .e => .movAE
  | .a, .h => .movAH
  | .a, .l => .movAL
  | .a, .a => .movAA

/-- `MOV r,M`: the 7 rows of R122. -/
def Instr.movRM : Reg8 → Instr
  | .b => .movBM
  | .c => .movCM
  | .d => .movDM
  | .e => .movEM
  | .h => .movHM
  | .l => .movLM
  | .a => .movAM

/-- `MOV M,r`: the 7 rows of R123. -/
def Instr.movMR : Reg8 → Instr
  | .b => .movMB
  | .c => .movMC
  | .d => .movMD
  | .e => .movME
  | .h => .movMH
  | .l => .movML
  | .a => .movMA

/-- `MVI r,d8`: the 7 rows of R124. -/
def Instr.mviR : Reg8 → Byte → Instr
  | .b, imm => .mviB imm
  | .c, imm => .mviC imm
  | .d, imm => .mviD imm
  | .e, imm => .mviE imm
  | .h, imm => .mviH imm
  | .l, imm => .mviL imm
  | .a, imm => .mviA imm

/-- `LXI rp,d16`: the 4 rows of R126. -/
def Instr.lxi : RegPair → Word → Instr
  | .bc, imm => .lxiB imm
  | .de, imm => .lxiD imm
  | .hl, imm => .lxiH imm
  | .sp, imm => .lxiSP imm

/-- `LDAX rp`: the 2 rows of R131. -/
def Instr.ldax : IndirectPair → Instr
  | .bc => .ldaxB
  | .de => .ldaxD

/-- `STAX rp`: the 2 rows of R132. -/
def Instr.stax : IndirectPair → Instr
  | .bc => .staxB
  | .de => .staxD

/-- The ALU group with a register: 8 operations, 7 registers (R141, R144, R147, R150, R170, R173, R176, R179). -/
def Instr.aluR : AluOp → Reg8 → Instr
  | .add, .b => .addB
  | .add, .c => .addC
  | .add, .d => .addD
  | .add, .e => .addE
  | .add, .h => .addH
  | .add, .l => .addL
  | .add, .a => .addA
  | .adc, .b => .adcB
  | .adc, .c => .adcC
  | .adc, .d => .adcD
  | .adc, .e => .adcE
  | .adc, .h => .adcH
  | .adc, .l => .adcL
  | .adc, .a => .adcA
  | .sub, .b => .subB
  | .sub, .c => .subC
  | .sub, .d => .subD
  | .sub, .e => .subE
  | .sub, .h => .subH
  | .sub, .l => .subL
  | .sub, .a => .subA
  | .sbb, .b => .sbbB
  | .sbb, .c => .sbbC
  | .sbb, .d => .sbbD
  | .sbb, .e => .sbbE
  | .sbb, .h => .sbbH
  | .sbb, .l => .sbbL
  | .sbb, .a => .sbbA
  | .ana, .b => .anaB
  | .ana, .c => .anaC
  | .ana, .d => .anaD
  | .ana, .e => .anaE
  | .ana, .h => .anaH
  | .ana, .l => .anaL
  | .ana, .a => .anaA
  | .xra, .b => .xraB
  | .xra, .c => .xraC
  | .xra, .d => .xraD
  | .xra, .e => .xraE
  | .xra, .h => .xraH
  | .xra, .l => .xraL
  | .xra, .a => .xraA
  | .ora, .b => .oraB
  | .ora, .c => .oraC
  | .ora, .d => .oraD
  | .ora, .e => .oraE
  | .ora, .h => .oraH
  | .ora, .l => .oraL
  | .ora, .a => .oraA
  | .cmp, .b => .cmpB
  | .cmp, .c => .cmpC
  | .cmp, .d => .cmpD
  | .cmp, .e => .cmpE
  | .cmp, .h => .cmpH
  | .cmp, .l => .cmpL
  | .cmp, .a => .cmpA

/-- The ALU group with M (R142, R145, R148, R151, R171, R174, R177, R180). -/
def Instr.aluM : AluOp → Instr
  | .add => .addM
  | .adc => .adcM
  | .sub => .subM
  | .sbb => .sbbM
  | .ana => .anaM
  | .xra => .xraM
  | .ora => .oraM
  | .cmp => .cmpM

/-- The ALU group with an immediate: ADI, ACI, SUI, SBI, ANI, XRI, ORI, CPI (R143, R146, R149, R152, R172, R175, R178, R181). -/
def Instr.aluI : AluOp → Byte → Instr
  | .add, imm => .adi imm
  | .adc, imm => .aci imm
  | .sub, imm => .sui imm
  | .sbb, imm => .sbi imm
  | .ana, imm => .ani imm
  | .xra, imm => .xri imm
  | .ora, imm => .ori imm
  | .cmp, imm => .cpi imm

/-- `INR r`: the 7 rows of R153. -/
def Instr.inrR : Reg8 → Instr
  | .b => .inrB
  | .c => .inrC
  | .d => .inrD
  | .e => .inrE
  | .h => .inrH
  | .l => .inrL
  | .a => .inrA

/-- `DCR r`: the 7 rows of R155. -/
def Instr.dcrR : Reg8 → Instr
  | .b => .dcrB
  | .c => .dcrC
  | .d => .dcrD
  | .e => .dcrE
  | .h => .dcrH
  | .l => .dcrL
  | .a => .dcrA

/-- `INX rp`: the 4 rows of R157. -/
def Instr.inx : RegPair → Instr
  | .bc => .inxB
  | .de => .inxD
  | .hl => .inxH
  | .sp => .inxSP

/-- `DCX rp`: the 4 rows of R158. -/
def Instr.dcx : RegPair → Instr
  | .bc => .dcxB
  | .de => .dcxD
  | .hl => .dcxH
  | .sp => .dcxSP

/-- `DAD rp`: the 4 rows of R159. -/
def Instr.dad : RegPair → Instr
  | .bc => .dadB
  | .de => .dadD
  | .hl => .dadH
  | .sp => .dadSP

/-- The conditional jumps (R202 to R209). -/
def Instr.jumpCond : Cond → Word → Instr
  | .nz, addr => .jnz addr
  | .z, addr => .jz addr
  | .nc, addr => .jnc addr
  | .c, addr => .jc addr
  | .po, addr => .jpo addr
  | .pe, addr => .jpe addr
  | .p, addr => .jp addr
  | .m, addr => .jm addr

/-- The conditional calls (R211 to R218). -/
def Instr.callCond : Cond → Word → Instr
  | .nz, addr => .cnz addr
  | .z, addr => .cz addr
  | .nc, addr => .cnc addr
  | .c, addr => .cc addr
  | .po, addr => .cpo addr
  | .pe, addr => .cpe addr
  | .p, addr => .cp addr
  | .m, addr => .cm addr

/-- The conditional returns (R220 to R227). -/
def Instr.retCond : Cond → Instr
  | .nz => .rnz
  | .z => .rz
  | .nc => .rnc
  | .c => .rc
  | .po => .rpo
  | .pe => .rpe
  | .p => .rp
  | .m => .rm

/-- `RST n`: the 8 rows of R228. -/
def Instr.rst : BitVec 3 → Instr
  | 0#3 => .rst0
  | 1#3 => .rst1
  | 2#3 => .rst2
  | 3#3 => .rst3
  | 4#3 => .rst4
  | 5#3 => .rst5
  | 6#3 => .rst6
  | 7#3 => .rst7

/-- `PUSH`: the 4 rows of R240, R241. -/
def Instr.push : StackPair → Instr
  | .bc => .pushB
  | .de => .pushD
  | .hl => .pushH
  | .psw => .pushPSW

/-- `POP`: the 4 rows of R242, R243. -/
def Instr.pop : StackPair → Instr
  | .bc => .popB
  | .de => .popD
  | .hl => .popH
  | .psw => .popPSW

/-- The illegal opcodes: the 12 rows of R256. -/
def Instr.illegal : IllegalByte → Instr
  | .x08 => .illegal08
  | .x10 => .illegal10
  | .x18 => .illegal18
  | .x20 => .illegal20
  | .x28 => .illegal28
  | .x30 => .illegal30
  | .x38 => .illegal38
  | .xCB => .illegalCB
  | .xD9 => .illegalD9
  | .xDD => .illegalDD
  | .xED => .illegalED
  | .xFD => .illegalFD

end Sys2Proof
end

