-- ==== Sys2Proof/WellFormed.lean ====
section
/-! DEFINITION. Well-formedness of instructions and of instruction bytes (30_encoding.md R90, R102). -/

namespace Sys2Proof

/-- Every term of `Instr` is an instruction: "every value of `imm8` and `imm16` is legal", there is no reserved field, and
the operand types have exactly the widths of the encoding (30_encoding.md R102). Nothing is left to check. -/
def Instr.wellFormed (_ : Instr) : Bool := true

/-- The length of an instruction by its opcode byte (30_encoding.md R90, the first form). -/
def instrLength (op : Byte) : Nat :=
  if op ∈ threeByteOpcodes then 3 else if op ∈ twoByteOpcodes then 2 else 1
where
  /-- LXI, SHLD, LHLD, STA, LDA, the jumps and the calls (R90). -/
  threeByteOpcodes : List Byte :=
    [0x01, 0x11, 0x21, 0x31, 0x22, 0x2A, 0x32, 0x3A] ++
    [0xC3, 0xC2, 0xCA, 0xD2, 0xDA, 0xE2, 0xEA, 0xF2, 0xFA] ++
    [0xCD, 0xC4, 0xCC, 0xD4, 0xDC, 0xE4, 0xEC, 0xF4, 0xFC]
  /-- MVI, the immediate ALU group, OUT and IN (R90). -/
  twoByteOpcodes : List Byte :=
    [0x06, 0x0E, 0x16, 0x1E, 0x26, 0x2E, 0x36, 0x3E] ++
    [0xC6, 0xCE, 0xD6, 0xDE, 0xE6, 0xEE, 0xF6, 0xFE, 0xD3, 0xDB]

/-- The bytes of one instruction: an opcode byte and exactly the operand bytes its length asks for (30_encoding.md R90). -/
def wellFormedBytes : List Byte → Bool
  | [] => false
  | op :: operands => operands.length + 1 == instrLength op

end Sys2Proof
end

