-- ==== Sys2Proof/Decode.lean ====
section
/-! DEFINITION. The decoder, total on any bytes, by the opcode map of 30_encoding.md R99, and the encoder, by the `match` bytes of
opcode_table.json (R100). A byte list that ends too soon is rejected by name. -/

namespace Sys2Proof

/-- `hi ++ lo`: the word whose bits 15:8 are `hi` (00_scope.md R8). -/
def joinBytes (hi lo : Byte) : Word := hi ++ lo

/-- Bits 15:8 of a word. -/
def hiByte (w : Word) : Byte := w.extractLsb' 8 8

/-- Bits 7:0 of a word. -/
def loByte (w : Word) : Byte := w.extractLsb' 0 8

/-- What an opcode byte asks for: nothing more, one operand byte, or two (30_encoding.md R91: formats R, I8, I16). -/
inductive Template where
  | fixed (i : Instr)
  | imm8 (mk : Byte → Instr)
  | imm16 (mk : Word → Instr)

/-- Why a list of bytes is no instruction. -/
inductive DecodeError where
  /-- There is no opcode byte. -/
  | noBytes
  /-- The operand bytes of this opcode are missing. -/
  | truncated (op : Byte)
  deriving DecidableEq, Repr

/-- Row 0x of the opcode map (30_encoding.md R99). -/
def opcodeRow0 : List Template :=
  [.fixed .nop, .imm16 .lxiB, .fixed .staxB, .fixed .inxB, .fixed .inrB, .fixed .dcrB, .imm8 .mviB, .fixed .rlc,
   .fixed .illegal08, .fixed .dadB, .fixed .ldaxB, .fixed .dcxB, .fixed .inrC, .fixed .dcrC, .imm8 .mviC, .fixed .rrc]

/-- Row 1x of the opcode map (30_encoding.md R99). -/
def opcodeRow1 : List Template :=
  [.fixed .illegal10, .imm16 .lxiD, .fixed .staxD, .fixed .inxD, .fixed .inrD, .fixed .dcrD, .imm8 .mviD, .fixed .ral,
   .fixed .illegal18, .fixed .dadD, .fixed .ldaxD, .fixed .dcxD, .fixed .inrE, .fixed .dcrE, .imm8 .mviE, .fixed .rar]

/-- Row 2x of the opcode map (30_encoding.md R99). -/
def opcodeRow2 : List Template :=
  [.fixed .illegal20, .imm16 .lxiH, .imm16 .shld, .fixed .inxH, .fixed .inrH, .fixed .dcrH, .imm8 .mviH, .fixed .daa,
   .fixed .illegal28, .fixed .dadH, .imm16 .lhld, .fixed .dcxH, .fixed .inrL, .fixed .dcrL, .imm8 .mviL, .fixed .cma]

/-- Row 3x of the opcode map (30_encoding.md R99). -/
def opcodeRow3 : List Template :=
  [.fixed .illegal30, .imm16 .lxiSP, .imm16 .sta, .fixed .inxSP, .fixed .inrM, .fixed .dcrM, .imm8 .mviM, .fixed .stc,
   .fixed .illegal38, .fixed .dadSP, .imm16 .lda, .fixed .dcxSP, .fixed .inrA, .fixed .dcrA, .imm8 .mviA, .fixed .cmc]

/-- Row 4x of the opcode map (30_encoding.md R99). -/
def opcodeRow4 : List Template :=
  [.fixed .movBB, .fixed .movBC, .fixed .movBD, .fixed .movBE, .fixed .movBH, .fixed .movBL, .fixed .movBM, .fixed .movBA,
   .fixed .movCB, .fixed .movCC, .fixed .movCD, .fixed .movCE, .fixed .movCH, .fixed .movCL, .fixed .movCM, .fixed .movCA]

/-- Row 5x of the opcode map (30_encoding.md R99). -/
def opcodeRow5 : List Template :=
  [.fixed .movDB, .fixed .movDC, .fixed .movDD, .fixed .movDE, .fixed .movDH, .fixed .movDL, .fixed .movDM, .fixed .movDA,
   .fixed .movEB, .fixed .movEC, .fixed .movED, .fixed .movEE, .fixed .movEH, .fixed .movEL, .fixed .movEM, .fixed .movEA]

/-- Row 6x of the opcode map (30_encoding.md R99). -/
def opcodeRow6 : List Template :=
  [.fixed .movHB, .fixed .movHC, .fixed .movHD, .fixed .movHE, .fixed .movHH, .fixed .movHL, .fixed .movHM, .fixed .movHA,
   .fixed .movLB, .fixed .movLC, .fixed .movLD, .fixed .movLE, .fixed .movLH, .fixed .movLL, .fixed .movLM, .fixed .movLA]

/-- Row 7x of the opcode map (30_encoding.md R99). -/
def opcodeRow7 : List Template :=
  [.fixed .movMB, .fixed .movMC, .fixed .movMD, .fixed .movME, .fixed .movMH, .fixed .movML, .fixed .hlt, .fixed .movMA,
   .fixed .movAB, .fixed .movAC, .fixed .movAD, .fixed .movAE, .fixed .movAH, .fixed .movAL, .fixed .movAM, .fixed .movAA]

/-- Row 8x of the opcode map (30_encoding.md R99). -/
def opcodeRow8 : List Template :=
  [.fixed .addB, .fixed .addC, .fixed .addD, .fixed .addE, .fixed .addH, .fixed .addL, .fixed .addM, .fixed .addA,
   .fixed .adcB, .fixed .adcC, .fixed .adcD, .fixed .adcE, .fixed .adcH, .fixed .adcL, .fixed .adcM, .fixed .adcA]

/-- Row 9x of the opcode map (30_encoding.md R99). -/
def opcodeRow9 : List Template :=
  [.fixed .subB, .fixed .subC, .fixed .subD, .fixed .subE, .fixed .subH, .fixed .subL, .fixed .subM, .fixed .subA,
   .fixed .sbbB, .fixed .sbbC, .fixed .sbbD, .fixed .sbbE, .fixed .sbbH, .fixed .sbbL, .fixed .sbbM, .fixed .sbbA]

/-- Row Ax of the opcode map (30_encoding.md R99). -/
def opcodeRowA : List Template :=
  [.fixed .anaB, .fixed .anaC, .fixed .anaD, .fixed .anaE, .fixed .anaH, .fixed .anaL, .fixed .anaM, .fixed .anaA,
   .fixed .xraB, .fixed .xraC, .fixed .xraD, .fixed .xraE, .fixed .xraH, .fixed .xraL, .fixed .xraM, .fixed .xraA]

/-- Row Bx of the opcode map (30_encoding.md R99). -/
def opcodeRowB : List Template :=
  [.fixed .oraB, .fixed .oraC, .fixed .oraD, .fixed .oraE, .fixed .oraH, .fixed .oraL, .fixed .oraM, .fixed .oraA,
   .fixed .cmpB, .fixed .cmpC, .fixed .cmpD, .fixed .cmpE, .fixed .cmpH, .fixed .cmpL, .fixed .cmpM, .fixed .cmpA]

/-- Row Cx of the opcode map (30_encoding.md R99). -/
def opcodeRowC : List Template :=
  [.fixed .rnz, .fixed .popB, .imm16 .jnz, .imm16 .jmp, .imm16 .cnz, .fixed .pushB, .imm8 .adi, .fixed .rst0,
   .fixed .rz, .fixed .ret, .imm16 .jz, .fixed .illegalCB, .imm16 .cz, .imm16 .call, .imm8 .aci, .fixed .rst1]

/-- Row Dx of the opcode map (30_encoding.md R99). -/
def opcodeRowD : List Template :=
  [.fixed .rnc, .fixed .popD, .imm16 .jnc, .imm8 .outPort, .imm16 .cnc, .fixed .pushD, .imm8 .sui, .fixed .rst2,
   .fixed .rc, .fixed .illegalD9, .imm16 .jc, .imm8 .inPort, .imm16 .cc, .fixed .illegalDD, .imm8 .sbi, .fixed .rst3]

/-- Row Ex of the opcode map (30_encoding.md R99). -/
def opcodeRowE : List Template :=
  [.fixed .rpo, .fixed .popH, .imm16 .jpo, .fixed .xthl, .imm16 .cpo, .fixed .pushH, .imm8 .ani, .fixed .rst4,
   .fixed .rpe, .fixed .pchl, .imm16 .jpe, .fixed .xchg, .imm16 .cpe, .fixed .illegalED, .imm8 .xri, .fixed .rst5]

/-- Row Fx of the opcode map (30_encoding.md R99). -/
def opcodeRowF : List Template :=
  [.fixed .rp, .fixed .popPSW, .imm16 .jp, .fixed .di, .imm16 .cp, .fixed .pushPSW, .imm8 .ori, .fixed .rst6,
   .fixed .rm, .fixed .sphl, .imm16 .jm, .fixed .ei, .imm16 .cm, .fixed .illegalFD, .imm8 .cpi, .fixed .rst7]

/-- The opcode map: row = high nibble, column = low nibble (30_encoding.md R99). -/
def opcodeMap : List (List Template) :=
  [opcodeRow0, opcodeRow1, opcodeRow2, opcodeRow3, opcodeRow4, opcodeRow5, opcodeRow6, opcodeRow7] ++
  [opcodeRow8, opcodeRow9, opcodeRowA, opcodeRowB, opcodeRowC, opcodeRowD, opcodeRowE, opcodeRowF]

/-- The 256-way lookup (30_encoding.md R100, R103). Every row has 16 cells, so the default is never taken. -/
def templateOf (op : Byte) : Template :=
  (opcodeMap.getD (op.toNat / 16) []).getD (op.toNat % 16) (.fixed .nop)

/-- Decodes the instruction at the front of a list of bytes, in address order, and answers the rest of the list (30_encoding.md R97). -/
def decode : List Byte → Except DecodeError (Instr × List Byte)
  | [] => .error .noBytes
  | op :: rest =>
    match templateOf op, rest with
    | .fixed i, rest => .ok (i, rest)
    | .imm8 mk, b :: rest => .ok (mk b, rest)
    | .imm16 mk, lo :: hi :: rest => .ok (mk (joinBytes hi lo), rest)
    | _, _ => .error (.truncated op)

/-- The bytes of an instruction in address order: the opcode byte, then `imm8`, or the low and the high byte of `imm16`
(30_encoding.md R91, R97). -/
def encode : Instr → List Byte
  | .movBB => [0x40]
  | .movBC => [0x41]
  | .movBD => [0x42]
  | .movBE => [0x43]
  | .movBH => [0x44]
  | .movBL => [0x45]
  | .movBA => [0x47]
  | .movCB => [0x48]
  | .movCC => [0x49]
  | .movCD => [0x4A]
  | .movCE => [0x4B]
  | .movCH => [0x4C]
  | .movCL => [0x4D]
  | .movCA => [0x4F]
  | .movDB => [0x50]
  | .movDC => [0x51]
  | .movDD => [0x52]
  | .movDE => [0x53]
  | .movDH => [0x54]
  | .movDL => [0x55]
  | .movDA => [0x57]
  | .movEB => [0x58]
  | .movEC => [0x59]
  | .movED => [0x5A]
  | .movEE => [0x5B]
  | .movEH => [0x5C]
  | .movEL => [0x5D]
  | .movEA => [0x5F]
  | .movHB => [0x60]
  | .movHC => [0x61]
  | .movHD => [0x62]
  | .movHE => [0x63]
  | .movHH => [0x64]
  | .movHL => [0x65]
  | .movHA => [0x67]
  | .movLB => [0x68]
  | .movLC => [0x69]
  | .movLD => [0x6A]
  | .movLE => [0x6B]
  | .movLH => [0x6C]
  | .movLL => [0x6D]
  | .movLA => [0x6F]
  | .movAB => [0x78]
  | .movAC => [0x79]
  | .movAD => [0x7A]
  | .movAE => [0x7B]
  | .movAH => [0x7C]
  | .movAL => [0x7D]
  | .movAA => [0x7F]
  | .movBM => [0x46]
  | .movCM => [0x4E]
  | .movDM => [0x56]
  | .movEM => [0x5E]
  | .movHM => [0x66]
  | .movLM => [0x6E]
  | .movAM => [0x7E]
  | .movMB => [0x70]
  | .movMC => [0x71]
  | .movMD => [0x72]
  | .movME => [0x73]
  | .movMH => [0x74]
  | .movML => [0x75]
  | .movMA => [0x77]
  | .mviB imm => [0x06, imm]
  | .mviC imm => [0x0E, imm]
  | .mviD imm => [0x16, imm]
  | .mviE imm => [0x1E, imm]
  | .mviH imm => [0x26, imm]
  | .mviL imm => [0x2E, imm]
  | .mviA imm => [0x3E, imm]
  | .mviM imm => [0x36, imm]
  | .lxiB imm => [0x01, loByte imm, hiByte imm]
  | .lxiD imm => [0x11, loByte imm, hiByte imm]
  | .lxiH imm => [0x21, loByte imm, hiByte imm]
  | .lxiSP imm => [0x31, loByte imm, hiByte imm]
  | .lda addr => [0x3A, loByte addr, hiByte addr]
  | .sta addr => [0x32, loByte addr, hiByte addr]
  | .lhld addr => [0x2A, loByte addr, hiByte addr]
  | .shld addr => [0x22, loByte addr, hiByte addr]
  | .ldaxB => [0x0A]
  | .ldaxD => [0x1A]
  | .staxB => [0x02]
  | .staxD => [0x12]
  | .xchg => [0xEB]
  | .addB => [0x80]
  | .addC => [0x81]
  | .addD => [0x82]
  | .addE => [0x83]
  | .addH => [0x84]
  | .addL => [0x85]
  | .addA => [0x87]
  | .addM => [0x86]
  | .adi imm => [0xC6, imm]
  | .adcB => [0x88]
  | .adcC => [0x89]
  | .adcD => [0x8A]
  | .adcE => [0x8B]
  | .adcH => [0x8C]
  | .adcL => [0x8D]
  | .adcA => [0x8F]
  | .adcM => [0x8E]
  | .aci imm => [0xCE, imm]
  | .subB => [0x90]
  | .subC => [0x91]
  | .subD => [0x92]
  | .subE => [0x93]
  | .subH => [0x94]
  | .subL => [0x95]
  | .subA => [0x97]
  | .subM => [0x96]
  | .sui imm => [0xD6, imm]
  | .sbbB => [0x98]
  | .sbbC => [0x99]
  | .sbbD => [0x9A]
  | .sbbE => [0x9B]
  | .sbbH => [0x9C]
  | .sbbL => [0x9D]
  | .sbbA => [0x9F]
  | .sbbM => [0x9E]
  | .sbi imm => [0xDE, imm]
  | .inrB => [0x04]
  | .inrC => [0x0C]
  | .inrD => [0x14]
  | .inrE => [0x1C]
  | .inrH => [0x24]
  | .inrL => [0x2C]
  | .inrA => [0x3C]
  | .inrM => [0x34]
  | .dcrB => [0x05]
  | .dcrC => [0x0D]
  | .dcrD => [0x15]
  | .dcrE => [0x1D]
  | .dcrH => [0x25]
  | .dcrL => [0x2D]
  | .dcrA => [0x3D]
  | .dcrM => [0x35]
  | .inxB => [0x03]
  | .inxD => [0x13]
  | .inxH => [0x23]
  | .inxSP => [0x33]
  | .dcxB => [0x0B]
  | .dcxD => [0x1B]
  | .dcxH => [0x2B]
  | .dcxSP => [0x3B]
  | .dadB => [0x09]
  | .dadD => [0x19]
  | .dadH => [0x29]
  | .dadSP => [0x39]
  | .daa => [0x27]
  | .anaB => [0xA0]
  | .anaC => [0xA1]
  | .anaD => [0xA2]
  | .anaE => [0xA3]
  | .anaH => [0xA4]
  | .anaL => [0xA5]
  | .anaA => [0xA7]
  | .anaM => [0xA6]
  | .ani imm => [0xE6, imm]
  | .xraB => [0xA8]
  | .xraC => [0xA9]
  | .xraD => [0xAA]
  | .xraE => [0xAB]
  | .xraH => [0xAC]
  | .xraL => [0xAD]
  | .xraA => [0xAF]
  | .xraM => [0xAE]
  | .xri imm => [0xEE, imm]
  | .oraB => [0xB0]
  | .oraC => [0xB1]
  | .oraD => [0xB2]
  | .oraE => [0xB3]
  | .oraH => [0xB4]
  | .oraL => [0xB5]
  | .oraA => [0xB7]
  | .oraM => [0xB6]
  | .ori imm => [0xF6, imm]
  | .cmpB => [0xB8]
  | .cmpC => [0xB9]
  | .cmpD => [0xBA]
  | .cmpE => [0xBB]
  | .cmpH => [0xBC]
  | .cmpL => [0xBD]
  | .cmpA => [0xBF]
  | .cmpM => [0xBE]
  | .cpi imm => [0xFE, imm]
  | .rlc => [0x07]
  | .rrc => [0x0F]
  | .ral => [0x17]
  | .rar => [0x1F]
  | .cma => [0x2F]
  | .cmc => [0x3F]
  | .stc => [0x37]
  | .jmp addr => [0xC3, loByte addr, hiByte addr]
  | .jnz addr => [0xC2, loByte addr, hiByte addr]
  | .jz addr => [0xCA, loByte addr, hiByte addr]
  | .jnc addr => [0xD2, loByte addr, hiByte addr]
  | .jc addr => [0xDA, loByte addr, hiByte addr]
  | .jpo addr => [0xE2, loByte addr, hiByte addr]
  | .jpe addr => [0xEA, loByte addr, hiByte addr]
  | .jp addr => [0xF2, loByte addr, hiByte addr]
  | .jm addr => [0xFA, loByte addr, hiByte addr]
  | .call addr => [0xCD, loByte addr, hiByte addr]
  | .cnz addr => [0xC4, loByte addr, hiByte addr]
  | .cz addr => [0xCC, loByte addr, hiByte addr]
  | .cnc addr => [0xD4, loByte addr, hiByte addr]
  | .cc addr => [0xDC, loByte addr, hiByte addr]
  | .cpo addr => [0xE4, loByte addr, hiByte addr]
  | .cpe addr => [0xEC, loByte addr, hiByte addr]
  | .cp addr => [0xF4, loByte addr, hiByte addr]
  | .cm addr => [0xFC, loByte addr, hiByte addr]
  | .ret => [0xC9]
  | .rnz => [0xC0]
  | .rz => [0xC8]
  | .rnc => [0xD0]
  | .rc => [0xD8]
  | .rpo => [0xE0]
  | .rpe => [0xE8]
  | .rp => [0xF0]
  | .rm => [0xF8]
  | .rst0 => [0xC7]
  | .rst1 => [0xCF]
  | .rst2 => [0xD7]
  | .rst3 => [0xDF]
  | .rst4 => [0xE7]
  | .rst5 => [0xEF]
  | .rst6 => [0xF7]
  | .rst7 => [0xFF]
  | .pchl => [0xE9]
  | .pushB => [0xC5]
  | .pushD => [0xD5]
  | .pushH => [0xE5]
  | .pushPSW => [0xF5]
  | .popPSW => [0xF1]
  | .popB => [0xC1]
  | .popD => [0xD1]
  | .popH => [0xE1]
  | .xthl => [0xE3]
  | .sphl => [0xF9]
  | .inPort port => [0xDB, port]
  | .outPort port => [0xD3, port]
  | .ei => [0xFB]
  | .di => [0xF3]
  | .hlt => [0x76]
  | .nop => [0x00]
  | .illegal08 => [0x08]
  | .illegal10 => [0x10]
  | .illegal18 => [0x18]
  | .illegal20 => [0x20]
  | .illegal28 => [0x28]
  | .illegal30 => [0x30]
  | .illegal38 => [0x38]
  | .illegalCB => [0xCB]
  | .illegalD9 => [0xD9]
  | .illegalDD => [0xDD]
  | .illegalED => [0xED]
  | .illegalFD => [0xFD]

/-- The instruction the decoder reads from the instruction whose bits are `w`, bit 0 the least significant bit of the first
byte. The bits above `nbits` are 0 and the longest instruction has three bytes. -/
def decodeTableWord (nbits w : Nat) : Option Instr :=
  match decode (tableBytes nbits w) with
  | .ok (i, _) => some i
  | .error _ => none
where
  /-- The three bytes of a table word, the first at the lowest address. -/
  tableBytes (nbits w : Nat) : List Byte :=
    let v := w % 2 ^ nbits
    [BitVec.ofNat 8 v, BitVec.ofNat 8 (v / 256), BitVec.ofNat 8 (v / 65536)]

end Sys2Proof
end

