-- ==== Sys2Proof/Config.lean ====
section
/-! DEFINITION. The parameters of the block (00_scope.md R7, 46_uart_bank.md R301) and its free values. A value the
spec leaves OPEN, or calls a draw, is an `opaque` constant: nothing can be proved of it but what its type says. -/

namespace Sys2Proof.Config

/-- `NS_PER_CYCLE`: nanoseconds of one i8080 clock cycle (R7; 90_conflicts.md C1). -/
def nsPerCycle : Nat := 561

/-- `ERR_CYCLES`: cycles billed for an illegal opcode (R7). -/
def errCycles : Nat := 4

/-- The count above which `DeviceStep` takes the value of `ExecOneOp` for the sentinel (60_exceptions.md R400). -/
def sentinelBound : Nat := 30

/-- How far the sentinel lies above the least value R7 allows. Free: the spec says "any value > 30". -/
opaque sentinelExcess : Nat

/-- `SENTINEL`: what an illegal opcode returns, any value above 30 (R7; 44_stack_io_control.md R256). -/
def sentinel : Nat := sentinelExcess + 31

/-- `RX_FIFO_MAX` (46_uart_bank.md R301). -/
def rxFifoMax : Nat := 2048

/-- `XOFF_THRESHOLD` (46_uart_bank.md R301). -/
def xoffThreshold : Nat := 1536

/-- `XON_THRESHOLD` (46_uart_bank.md R301). -/
def xonThreshold : Nat := 512

/-- Half a receive FIFO, the most old bytes a batch displaces (46_uart_bank.md R319). -/
def batchDropMax : Nat := 1024

/-- `XON` (46_uart_bank.md R301). -/
def xonByte : Byte := 0x11

/-- `XOFF` (46_uart_bank.md R301). -/
def xoffByte : Byte := 0x13

/-- `SERIAL_CHAR_DELAY_NS`: one character time (46_uart_bank.md R301). -/
def serialCharDelayNs : Nat := 572917

/-- The least delay of a backpressure re-arm (R7 `BACKPRESSURE_DELAY_NS`). -/
def rearmMinNs : Nat := 50000

/-- `MAX_STEP_NS`: the safety clamp (R7; 48_scheduler.md R379). -/
def maxStepNs : Nat := 50000000

/-- The interrupt vector the card issues (R7). -/
def cardVector : Byte := 0xFF

/-- `MXD_EPROM`: byte i of the firmware image, i in 0..4095. OPEN (R7; 10_state.md R35). Log entry 2. -/
opaque mxdEprom : Nat → Byte

/-- `RAM_INIT`: byte i of RAM at power-on, i in 0..4095. OPEN (R7; 10_state.md R51). Log entry 3. -/
opaque ramInit : Nat → Byte

/-- The n-th draw, where it is a byte: `draw(0..255)` (20_memory.md R65; 45_io_ports.md R290). Log entry 4. -/
opaque freeByte : Nat → Byte

/-- The n-th draw, where it is the answer `tx_backpressure(k)` (46_uart_bank.md R306). Log entry 5. -/
opaque freeBackpressure : Nat → Bool

/-- The n-th draw, where it is a re-arm delay, less the least delay: 0..150000 (46_uart_bank.md R309). Log entry 5. -/
opaque freeRearm : Nat → Fin 150001

end Sys2Proof.Config
end

