-- ==== Sys2Proof/Machine/State.lean ====
section
/-! DEFINITION. The state of the MXD i8080 core as plain data (10_state.md), its faults, and the state after power-on. -/

namespace Sys2Proof.Machine

/-- A UART channel number, 0..3 (10_state.md R40, R43). -/
inductive Chan where
  | c0 | c1 | c2 | c3
  deriving DecidableEq, Repr

/-- A channel's number. -/
def Chan.toNat : Chan → Nat
  | .c0 => 0
  | .c1 => 1
  | .c2 => 2
  | .c3 => 3

/-- The faults F1 to F10 of 60_exceptions.md R410, with the information each records. A fault transfers no control: it is
recorded in `State.fault` (00_scope.md R10) and the step goes on with its continuation, so no step ENDS in one. Safe: the
continuation is the spec's, and the record marks the run as gone wrong. Log entry 1. -/
inductive Fault where
  /-- F1, raised by the twelve illegal opcode bytes (R256): the byte and its address. Safe. -/
  | illegalOpcode (op : Byte) (addr : Word)
  /-- F2, raised by a byte read at an address in no region (R65). Safe: the byte is a free value. -/
  | undefinedAddressRead (addr : Word)
  /-- F3, raised by a byte write at an address in no region (R65). Safe. -/
  | undefinedAddressWrite (addr : Word)
  /-- F4, raised by a byte write to ROM (R66). Safe. -/
  | romWrite (addr : Word)
  /-- F5, raised by IN from an undefined port (R290). Safe: the byte is a free value. -/
  | undefinedPortRead (port : Byte)
  /-- F6, raised by OUT to an undefined port (R290). Safe. -/
  | undefinedPortWrite (port : Byte)
  /-- F7, raised by OUT 0x05 with a byte that is not one-hot (R285). Safe. -/
  | badUartSelect (v : Byte)
  /-- F8, raised by OUT 0x06 while the holding register is full (R286). Safe. -/
  | txOverrun (k : Chan)
  /-- F9, raised by a host strobe while one is pending (R346). Safe. -/
  | doubleStrobe
  /-- F10, raised by acceptance of a vector that is not an RST opcode (R405). Safe. -/
  | unsupportedVector (vec : Byte)
  deriving DecidableEq, Repr

/-- The reasons an operation has no meaning. -/
inductive Refusal where
  /-- An instruction without a meaning: raised by an arm of `exec` only. No arm raises it in this model. Safe. -/
  | notModelled (mnemonic : String)
  /-- `attach` on a channel at or above NUM_TERMS (46_uart_bank.md R322; 93 U12 "refuse"): raised by the environment
  operation `attach` only, never by `step`. Safe. -/
  | attachBeyondNumTerms (k : Chan)
  deriving DecidableEq, Repr

/-- The five condition flags (10_state.md R25). -/
structure Flags where
  /-- S, bit 7 of F. -/
  sign : Bool
  /-- Z, bit 6 of F. -/
  zero : Bool
  /-- AC, bit 4 of F. -/
  auxCarry : Bool
  /-- P, bit 2 of F. -/
  parity : Bool
  /-- CY, bit 0 of F. -/
  carry : Bool
  deriving DecidableEq, Repr

/-- Bytes written into a memory, by the processor's address: addresses strictly rising (`Memory.wf`). An unlisted
address holds no written byte. Log entries 2 and 3. -/
abbrev Memory := List Host.Cell

/-- The latches of the parallel bus interface (10_state.md R36 to R39). -/
structure BusLatches where
  selected : Bool
  ioOffset : BitVec 3
  cpb : Bool
  obsSeen : Bool
  cbsSeen : Bool
  obscbsOffset : BitVec 3
  obscbsData : Byte
  primeSeen : Bool
  rbi : Byte
  deriving DecidableEq, Repr

/-- What a UART channel is attached to (10_state.md R46); `null` is the spec's None. -/
inductive Endpoint where
  | null | serial | session
  deriving DecidableEq, Repr

/-- One UART channel (10_state.md R43 to R46). `txTimer` is the handle of the outstanding timer; the front of `fifo` is
the oldest byte. -/
structure Channel where
  txReady : Bool
  txByte : Byte
  txTimer : Option Nat
  fifo : List Byte
  xoffSent : Bool
  rxOverrunDrops : Nat
  xonSentCount : Nat
  xoffSentCount : Nat
  endpoint : Endpoint
  deriving DecidableEq, Repr

/-- The UART bank: the selected channel (10_state.md R40) and the four channels. -/
structure UartBank where
  sel : Chan
  ch0 : Channel
  ch1 : Channel
  ch2 : Channel
  ch3 : Channel
  deriving DecidableEq, Repr

/-- A pending timer (10_state.md R47). Its callback is always "character time of channel `chan` is over", so the channel
stands for the closure. -/
structure Timer where
  handle : Nat
  deadline : Nat
  seq : Nat
  chan : Chan
  deriving DecidableEq, Repr

/-- The scheduler (10_state.md R47; 48_scheduler.md R371). The pending timers stand in creation order. -/
structure Scheduler where
  now : Nat
  timers : List Timer
  nextSeq : Nat
  deriving DecidableEq, Repr

/-- An output event (00_scope.md R9; 46_uart_bank.md R305; 47_bus_interface.md R356). -/
inductive Event where
  | ibs (v : BitVec 9)
  | sysWarmReset
  | cpuHalt
  | epSend (k : Chan) (b : Byte)
  | epXon (k : Chan)
  | epXoff (k : Chan)
  deriving DecidableEq, Repr

/-- An entry of the output trace (10_state.md R48): the event and the virtual time at which it was emitted. -/
structure Emitted where
  time : Nat
  event : Event
  deriving DecidableEq, Repr

/-- `NUM_TERMS`, 1..4 (00_scope.md R7). -/
inductive NumTerms where
  | one | two | three | four
  deriving DecidableEq, Repr

/-- The number of terminals. -/
def NumTerms.toNat : NumTerms → Nat
  | .one => 1
  | .two => 2
  | .three => 3
  | .four => 4

/-- `BASE_ADDR`, one of 0x00, 0x40, 0x80, 0xC0 (00_scope.md R7). -/
inductive BaseAddr where
  | x00 | x40 | x80 | xC0
  deriving DecidableEq, Repr

/-- The base address as a bus address. -/
def BaseAddr.toByte : BaseAddr → Byte
  | .x00 => 0x00
  | .x40 => 0x40
  | .x80 => 0x80
  | .xC0 => 0xC0

/-- The configuration, fixed for the life of the card (10_state.md R52). No transition changes it. Log entry 7. -/
structure CardConfig where
  numTerms : NumTerms
  baseAddr : BaseAddr
  deriving DecidableEq, Repr

/-- The whole state of the block (10_state.md). -/
structure State where
  /-- General registers (R20). -/
  a : Byte
  b : Byte
  c : Byte
  d : Byte
  e : Byte
  h : Byte
  l : Byte
  /-- Condition flags (R25). -/
  flags : Flags
  /-- Stack pointer (R23). -/
  sp : Word
  /-- Program counter (R24). -/
  pc : Word
  /-- Interrupt enable (R28). -/
  inte : Bool
  /-- Set by EI for one instruction (R29). -/
  eiShadow : Bool
  /-- Halt flag (R30). -/
  halted : Bool
  /-- Interrupt request latch (R31). -/
  intReq : Bool
  /-- The opcode to execute on acceptance (R31). -/
  intVec : Byte
  /-- Cycle counter (R32). -/
  cyc : Nat
  /-- The first fault raised, if any (R33). -/
  fault : Option Fault
  /-- RAM (R34): the bytes written since power-on; an unlisted byte reads as RAM_INIT. -/
  ram : Memory
  /-- ROM (R35): the bytes of the image that are given; an unlisted byte reads as MXD_EPROM. Never changed by a transition. -/
  rom : Memory
  /-- Bus latches (R36 to R39). -/
  bus : BusLatches
  /-- UART bank (R40, R43 to R46). -/
  uart : UartBank
  /-- Scheduler (R47). -/
  sched : Scheduler
  /-- Output trace, oldest event first (R48). -/
  trace : List Emitted
  /-- Configuration (R52). -/
  cfg : CardConfig
  /-- The model's own: how many free values have been drawn (00_scope.md R9 `draw`). Log entry 4. -/
  draws : Nat
  /-- The model's own: the cycle count that `ExecOneOp` returned in the last core step (60_exceptions.md R402). Log entry 6. -/
  opCycles : Nat
  deriving DecidableEq, Repr

/-- What an operation of the machine answers. -/
abbrev Out := Host.Outcome State Fault Refusal

/-- All flags clear (R51). -/
def Flags.reset : Flags :=
  { sign := false, zero := false, auxCarry := false, parity := false, carry := false }

/-- A channel at power-on (R51). -/
def Channel.reset : Channel :=
  { txReady := true, txByte := 0x00#8, txTimer := none, fifo := [], xoffSent := false, rxOverrunDrops := 0,
    xonSentCount := 0, xoffSentCount := 0, endpoint := .null }

/-- The machine right after power-on (R51; 70_reset_and_hazards.md R440): the values of the table of R51, the
configuration at its defaults (00_scope.md R7), no RAM or ROM byte given. -/
def State.reset : State :=
  { a := 0x00#8, b := 0x00#8, c := 0x00#8, d := 0x00#8, e := 0x00#8, h := 0x00#8, l := 0x00#8
    flags := Flags.reset
    sp := 0x0000#16, pc := 0x0000#16
    inte := false, eiShadow := false, halted := false, intReq := false, intVec := 0x00#8
    cyc := 0
    fault := none
    ram := [], rom := []
    bus := { selected := false, ioOffset := 0#3, cpb := true, obsSeen := false, cbsSeen := false, obscbsOffset := 0#3,
             obscbsData := 0x00#8, primeSeen := true, rbi := 0xFF#8 }
    uart := { sel := .c0, ch0 := Channel.reset, ch1 := Channel.reset, ch2 := Channel.reset, ch3 := Channel.reset }
    sched := { now := 0, timers := [], nextSeq := 0 }
    trace := []
    cfg := { numTerms := .one, baseAddr := .x00 }
    draws := 0
    opCycles := 0 }

end Sys2Proof.Machine
end

