-- ==== Sys2Proof/Machine/Flags.lean ====
section
/-! DEFINITION. Every flag computation of the i8080 (10_state.md R25 to R27, 41_arithmetic.md R140, R153, R155, R159, R160,
42_logical.md R170, R173, R176, 30_encoding.md R96). -/

namespace Sys2Proof.Machine

/-- A byte with bit `i` equal to `x` and the other bits 0. -/
def bitAt (i : Nat) (x : Bool) : Byte := (BitVec.ofBool x).zeroExtend 8 <<< i

/-- The flag byte F = S<<7 | Z<<6 | AC<<4 | P<<2 | 0x02 | CY (10_state.md R25). -/
def flagByte (f : Flags) : Byte :=
  bitAt 7 f.sign ||| bitAt 6 f.zero ||| bitAt 4 f.auxCarry ||| bitAt 2 f.parity ||| 0x02#8 ||| bitAt 0 f.carry

/-- The five flags of a popped flag byte; bits 1, 3 and 5 are ignored (44_stack_io_control.md R242). -/
def flagsOfByte (v : Byte) : Flags :=
  { sign := v.getLsbD 7, zero := v.getLsbD 6, auxCarry := v.getLsbD 4, parity := v.getLsbD 2, carry := v.getLsbD 0 }

/-- The number of 1 bits of a byte. -/
def countOnes (v : Byte) : Nat := ((List.range 8).filter (fun i => v.getLsbD i)).length

/-- `SZP(v)`: S, Z and P from the byte, AC and CY kept (10_state.md R26). -/
def szp (v : Byte) (f : Flags) : Flags :=
  { f with sign := v.getLsbD 7, zero := v == 0#8, parity := countOnes v % 2 == 0 }

/-- The low nibble of a byte, as a number. -/
def lowNibble (v : Byte) : Nat := (v &&& 0x0F#8).toNat

/-- The high nibble of a byte, as a number. -/
def highNibble (v : Byte) : Nat := (v >>> 4).toNat

/-- `Add8(a, b, c)`: the sum and the flags (41_arithmetic.md R140). -/
def add8 (a b : Byte) (c : Bool) (f : Flags) : Byte × Flags :=
  let sum := a.toNat + b.toNat + c.toNat
  let res := BitVec.ofNat 8 sum
  (res, szp res { f with
    auxCarry := decide (0x0F < lowNibble a + lowNibble b + c.toNat)
    carry := decide (0xFF < sum) })

/-- `Sub8(a, b, c)`: the difference and the flags; AC is the carry out of bit 3 of the addition of the complement
(41_arithmetic.md R140). -/
def sub8 (a b : Byte) (c : Bool) (f : Flags) : Byte × Flags :=
  let diff : Int := (a.toNat : Int) - (b.toNat : Int) - (c.toNat : Int)
  let res := BitVec.ofInt 8 diff
  (res, szp res { f with
    auxCarry := decide (0x0F < lowNibble a + lowNibble (~~~b) + (1 - c.toNat))
    carry := decide (diff < 0) })

/-- The logical and: CY cleared, AC the or of bit 3 of the operands (42_logical.md R170). -/
def and8 (a v : Byte) (f : Flags) : Byte × Flags :=
  (a &&& v, szp (a &&& v) { f with auxCarry := (a ||| v).getLsbD 3, carry := false })

/-- The exclusive or: AC and CY cleared (42_logical.md R173). -/
def xor8 (a v : Byte) (f : Flags) : Byte × Flags :=
  (a ^^^ v, szp (a ^^^ v) { f with auxCarry := false, carry := false })

/-- The or: AC and CY cleared (42_logical.md R176). -/
def or8 (a v : Byte) (f : Flags) : Byte × Flags :=
  (a ||| v, szp (a ||| v) { f with auxCarry := false, carry := false })

/-- The ALU group (30_encoding.md R93): the new accumulator and flags. CMP sets the flags of SUB and keeps `a`
(42_logical.md R179). -/
def aluResult (op : AluOp) (a v : Byte) (f : Flags) : Byte × Flags :=
  match op with
  | .add => add8 a v false f
  | .adc => add8 a v f.carry f
  | .sub => sub8 a v false f
  | .sbb => sub8 a v f.carry f
  | .ana => and8 a v f
  | .xra => xor8 a v f
  | .ora => or8 a v f
  | .cmp => (a, (sub8 a v false f).2)

/-- INR of a byte: CY is kept (41_arithmetic.md R153). -/
def inr8 (v : Byte) (f : Flags) : Byte × Flags :=
  (v + 1#8, szp (v + 1#8) { f with auxCarry := lowNibble (v + 1#8) == 0x00 })

/-- DCR of a byte: CY is kept (41_arithmetic.md R155). -/
def dcr8 (v : Byte) (f : Flags) : Byte × Flags :=
  (v - 1#8, szp (v - 1#8) { f with auxCarry := !(lowNibble (v - 1#8) == 0x0F) })

/-- DAD: the 16-bit sum; CY only (41_arithmetic.md R159). -/
def add16 (x y : Word) (f : Flags) : Word × Flags :=
  (BitVec.ofNat 16 (x.toNat + y.toNat), { f with carry := decide (0xFFFF < x.toNat + y.toNat) })

/-- DAA (41_arithmetic.md R160): CY is set or kept, never cleared. -/
def decimalAdjust (a : Byte) (f : Flags) : Byte × Flags :=
  let lo := lowNibble a
  let hi := highNibble a
  let lowFix := f.auxCarry || decide (9 < lo)
  let highFix := f.carry || decide (9 < hi) || (decide (9 ≤ hi) && decide (9 < lo))
  let corr := (if lowFix then 0x06 else 0) + (if highFix then 0x60 else 0)
  let res := BitVec.ofNat 8 (a.toNat + corr)
  (res, szp res { f with
    auxCarry := decide (0x0F < lo + corr % 16)
    carry := highFix || f.carry })

/-- RLC (42_logical.md R182). -/
def rotateLeft (a : Byte) (f : Flags) : Byte × Flags :=
  ((a <<< 1) ||| bitAt 0 (a.getLsbD 7), { f with carry := a.getLsbD 7 })

/-- RRC (42_logical.md R183). -/
def rotateRight (a : Byte) (f : Flags) : Byte × Flags :=
  ((a >>> 1) ||| bitAt 7 (a.getLsbD 0), { f with carry := a.getLsbD 0 })

/-- RAL (42_logical.md R184). -/
def rotateLeftCarry (a : Byte) (f : Flags) : Byte × Flags :=
  ((a <<< 1) ||| bitAt 0 f.carry, { f with carry := a.getLsbD 7 })

/-- RAR (42_logical.md R185). -/
def rotateRightCarry (a : Byte) (f : Flags) : Byte × Flags :=
  ((a >>> 1) ||| bitAt 7 f.carry, { f with carry := a.getLsbD 0 })

/-- `Cond(ccc)` (30_encoding.md R96). -/
def condHolds (cond : Cond) (f : Flags) : Bool :=
  match cond with
  | .nz => !f.zero
  | .z => f.zero
  | .nc => !f.carry
  | .c => f.carry
  | .po => !f.parity
  | .pe => f.parity
  | .p => !f.sign
  | .m => f.sign

end Sys2Proof.Machine
end

