-- ==== Sys2Proof/Machine/Ops.lean ====
section
/-! DEFINITION. The named operations over memory and control state: the primitives of 00_scope.md R9 and R10, the memory map and
its accesses (20_memory.md), the stack, the fetch of one byte, and taking the interrupt (60_exceptions.md R405). -/

namespace Sys2Proof.Machine

/-- The canonical form of a memory over the addresses `lo` up to but not `hi`: addresses strictly rising, all in range.
An unlisted address holds no byte, so no entry equals what an unlisted address holds. -/
def Memory.wf (lo hi : Nat) : Memory → Bool
  | [] => true
  | (k, _) :: rest => decide (lo ≤ k) && decide (k < hi) && Memory.wf (k + 1) hi rest

/-- The byte listed at an address, if one is. -/
def Memory.read : Memory → Nat → Option Byte
  | [], _ => none
  | (k, v) :: rest, a => if a = k then some v else Memory.read rest a

/-- Lists a byte at an address, keeping the addresses rising. -/
def Memory.write : Memory → Nat → Byte → Memory
  | [], a, v => [(a, v)]
  | (k, w) :: rest, a, v =>
    if a < k then (a, v) :: (k, w) :: rest
    else if a = k then (a, v) :: rest
    else (k, w) :: Memory.write rest a v

/-- What stands at an address (20_memory.md R62). -/
inductive Region where
  | rom | ram | unmapped
  deriving DecidableEq, Repr

/-- The decode of a 16-bit address (20_memory.md R62). There is no mirroring. -/
def regionOf (a : Word) : Region :=
  if a.toNat < 0x1000 then .rom
  else if 0x2000 ≤ a.toNat ∧ a.toNat < 0x3000 then .ram
  else .unmapped

/-- The byte memory holds at an address, none where nothing stands there (20_memory.md R62). -/
def State.peek (s : State) (a : Word) : Option Byte :=
  match regionOf a with
  | .rom => some ((Memory.read s.rom a.toNat).getD (Config.mxdEprom a.toNat))
  | .ram => some ((Memory.read s.ram a.toNat).getD (Config.ramInit (a.toNat - 0x2000)))
  | .unmapped => none

/-- `raise`: records a fault, the first one only (00_scope.md R10; 10_state.md R33). -/
def State.raise (f : Fault) (s : State) : State :=
  { s with fault := some (s.fault.getD f) }

/-- `emit`: appends an event to the output trace, stamped with the virtual time (00_scope.md R9; 10_state.md R48). -/
def State.emit (ev : Event) (s : State) : State :=
  { s with trace := s.trace ++ [{ time := s.sched.now, event := ev }] }

/-- `draw(0..255)` (00_scope.md R9). -/
def drawByte (s : State) : Byte × State :=
  (Config.freeByte s.draws, { s with draws := s.draws + 1 })

/-- The answer `tx_backpressure(k)` as a draw (46_uart_bank.md R306). -/
def drawBackpressure (s : State) : Bool × State :=
  (Config.freeBackpressure s.draws, { s with draws := s.draws + 1 })

/-- `draw(50000 .. 200000)` (46_uart_bank.md R309). -/
def drawRearmNs (s : State) : Nat × State :=
  (Config.rearmMinNs + (Config.freeRearm s.draws).val, { s with draws := s.draws + 1 })

/-- `MemRead(a, 1)` (20_memory.md R63, R65). -/
def memRead (a : Word) (s : State) : Byte × State :=
  match s.peek a with
  | some v => (v, s)
  | none => drawByte (s.raise (.undefinedAddressRead a))

/-- `MemWrite(a, 1, v)` (20_memory.md R64, R65, R66). -/
def memWrite (a : Word) (v : Byte) (s : State) : State :=
  match regionOf a with
  | .rom => s.raise (.romWrite a)
  | .ram => { s with ram := Memory.write s.ram a.toNat v }
  | .unmapped => s.raise (.undefinedAddressWrite a)

/-- `MemRead(a, 2)`: the byte at `a` first; it is bits 7:0 (20_memory.md R67). -/
def memRead16 (a : Word) (s : State) : Word × State :=
  let lo := memRead a s
  let hi := memRead (a + 1#16) lo.2
  (joinBytes hi.1 lo.1, hi.2)

/-- `MemWrite(a, 2, v)`: bits 7:0 at `a` first (20_memory.md R67). -/
def memWrite16 (a v : Word) (s : State) : State :=
  memWrite (a + 1#16) (hiByte v) (memWrite a (loByte v) s)

/-- `Push16(v)`: the high byte first; `SP` moves even when a write faulted (20_memory.md R80). -/
def push16 (v : Word) (s : State) : State :=
  let s1 := memWrite (s.sp - 1#16) (hiByte v) s
  let s2 := memWrite (s.sp - 2#16) (loByte v) s1
  { s2 with sp := s.sp - 2#16 }

/-- `Pop16()`: the low byte first; `SP` moves even when a read faulted (20_memory.md R80). -/
def pop16 (s : State) : Word × State :=
  let r := memRead16 s.sp s
  (r.1, { r.2 with sp := s.sp + 2#16 })

/-- The fetch of one instruction byte: the byte at `PC`, and `PC` moved past it (10_state.md R24; 20_memory.md R68). -/
def fetchByte (s : State) : Byte × State :=
  let r := memRead s.pc s
  (r.1, { r.2 with pc := s.pc + 1#16 })

/-- The end of an instruction's rule: it states `cycles` (00_scope.md R9) and goes on. -/
def State.done (cycles : Nat) (s : State) : Out :=
  .next { s with opCycles := cycles }

/-- `interrupt(vector)`: latches a request (60_exceptions.md R401). -/
def raiseInterrupt (vec : Byte) (s : State) : State :=
  { s with intReq := true, intVec := vec }

/-- Whether a byte is an RST opcode, `0b11 nnn 111` (30_encoding.md R107; 60_exceptions.md R405). -/
def isRestart (v : Byte) : Bool := v &&& 0xC7#8 == 0xC7#8

/-- The restart number of an RST opcode, bits 5:3 (30_encoding.md R98). -/
def restartNumber (v : Byte) : BitVec 3 := v.extractLsb' 3 3

/-- The target of `RST n`, 8 * n (30_encoding.md R98; 20_memory.md R73). -/
def restartTarget (n : BitVec 3) : Word := n.zeroExtend 16 <<< 3

/-- TAKING THE INTERRUPT, `AcceptInterrupt()` (60_exceptions.md R405, R408): interrupts off, the core awake, the PC
pushed, control at the restart address; 11 cycles. Nothing is fetched and nothing else is saved. -/
def acceptInterrupt (s : State) : State :=
  let s1 := { s with inte := false, halted := false, eiShadow := false }
  let s2 := if isRestart s1.intVec then { push16 s1.pc s1 with pc := restartTarget (restartNumber s1.intVec) }
    else s1.raise (.unsupportedVector s1.intVec)
  { s2 with opCycles := 11 }

/-- The return from an interrupt handler is the return from a subroutine: `PC <- Pop16()` and nothing else
(60_exceptions.md R409; 43_branch.md R219). -/
def returnFromStack (s : State) : State :=
  let r := pop16 s
  { r.2 with pc := r.1 }

end Sys2Proof.Machine
end

