-- ==== Sys2Proof/Machine/Operands.lean ====
section
/-! DEFINITION. The operand forms of the i8080 (30_encoding.md R94, R95; 10_state.md R21, R22) and the operations of the
instruction families over them. -/

namespace Sys2Proof.Machine

/-- `reg[c]` (00_scope.md R9; 30_encoding.md R94). -/
def State.reg (s : State) (r : Reg8) : Byte :=
  match r with
  | .b => s.b
  | .c => s.c
  | .d => s.d
  | .e => s.e
  | .h => s.h
  | .l => s.l
  | .a => s.a

/-- `reg[c] <- v` (00_scope.md R9). -/
def State.setReg (r : Reg8) (v : Byte) (s : State) : State :=
  match r with
  | .b => { s with b := v }
  | .c => { s with c := v }
  | .d => { s with d := v }
  | .e => { s with e := v }
  | .h => { s with h := v }
  | .l => { s with l := v }
  | .a => { s with a := v }

/-- `BC`: B is bits 15:8, C bits 7:0 (10_state.md R21). -/
def State.bc (s : State) : Word := joinBytes s.b s.c

/-- `DE` (10_state.md R21). -/
def State.de (s : State) : Word := joinBytes s.d s.e

/-- `HL` (10_state.md R21). -/
def State.hl (s : State) : Word := joinBytes s.h s.l

/-- `rp[c]`, code 3 being SP (30_encoding.md R95). -/
def State.pair (s : State) (p : RegPair) : Word :=
  match p with
  | .bc => s.bc
  | .de => s.de
  | .hl => s.hl
  | .sp => s.sp

/-- `rp[c] <- v`: writing a pair writes both registers (10_state.md R21). -/
def State.setPair (p : RegPair) (v : Word) (s : State) : State :=
  match p with
  | .bc => { s with b := hiByte v, c := loByte v }
  | .de => { s with d := hiByte v, e := loByte v }
  | .hl => { s with h := hiByte v, l := loByte v }
  | .sp => { s with sp := v }

/-- The pair PUSH stores, code 3 being PSW = A ++ F (10_state.md R21; 44_stack_io_control.md R240, R241). -/
def State.stackPair (s : State) (p : StackPair) : Word :=
  match p with
  | .bc => s.bc
  | .de => s.de
  | .hl => s.hl
  | .psw => joinBytes s.a (flagByte s.flags)

/-- The pair POP writes; POP PSW writes A and the five flags (44_stack_io_control.md R242, R243). -/
def State.setStackPair (p : StackPair) (v : Word) (s : State) : State :=
  match p with
  | .bc => { s with b := hiByte v, c := loByte v }
  | .de => { s with d := hiByte v, e := loByte v }
  | .hl => { s with h := hiByte v, l := loByte v }
  | .psw => { s with a := hiByte v, flags := flagsOfByte (loByte v) }

/-- `MemRead(HL, 1)`: the operand M (10_state.md R22). -/
def readM (s : State) : Byte × State := memRead s.hl s

/-- `MemWrite(HL, 1, v)`: the destination M (10_state.md R22). -/
def writeM (v : Byte) (s : State) : State := memWrite s.hl v s

/-- An ALU operation on A and an operand byte (30_encoding.md R93). -/
def alu (op : AluOp) (v : Byte) (s : State) : State :=
  let r := aluResult op s.a v s.flags
  { s with a := r.1, flags := r.2 }

/-- The ALU group with a register (41_arithmetic.md R141; 42_logical.md R170): 4 cycles. -/
def aluReg (op : AluOp) (r : Reg8) (s : State) : Out := (alu op (s.reg r) s).done 4

/-- The ALU group with M (41_arithmetic.md R142; 42_logical.md R171): 7 cycles. -/
def aluMem (op : AluOp) (s : State) : Out :=
  let m := readM s
  (alu op m.1 m.2).done 7

/-- The ALU group with an immediate (41_arithmetic.md R143; 42_logical.md R172): 7 cycles. -/
def aluImm (op : AluOp) (imm : Byte) (s : State) : Out := (alu op imm s).done 7

end Sys2Proof.Machine
end

