-- ==== Sys2Proof/Machine/Arithmetic.lean ====
section
/-! DEFINITION. The arithmetic instructions (41_arithmetic.md). -/

namespace Sys2Proof.Machine

/-- `INR r` (R153). -/
def incReg (r : Reg8) (s : State) : Out :=
  let v := inr8 (s.reg r) s.flags
  State.done 5 { s.setReg r v.1 with flags := v.2 }

/-- `INR M`: one read, then one write, at the same address (R154). -/
def incM (s : State) : Out :=
  let m := readM s
  let v := inr8 m.1 m.2.flags
  (writeM v.1 { m.2 with flags := v.2 }).done 10

/-- `DCR r` (R155). -/
def decReg (r : Reg8) (s : State) : Out :=
  let v := dcr8 (s.reg r) s.flags
  State.done 5 { s.setReg r v.1 with flags := v.2 }

/-- `DCR M` (R156). -/
def decM (s : State) : Out :=
  let m := readM s
  let v := dcr8 m.1 m.2.flags
  (writeM v.1 { m.2 with flags := v.2 }).done 10

/-- `INX rp` (R157). -/
def incPair (p : RegPair) (s : State) : Out := (s.setPair p (s.pair p + 1#16)).done 5

/-- `DCX rp` (R158). -/
def decPair (p : RegPair) (s : State) : Out := (s.setPair p (s.pair p - 1#16)).done 5

/-- `DAD rp` (R159). -/
def addPair (p : RegPair) (s : State) : Out :=
  let v := add16 s.hl (s.pair p) s.flags
  State.done 10 { s.setPair .hl v.1 with flags := v.2 }

/-- An operation on A and the flags alone, 4 cycles: DAA (R160) and the rotates (42_logical.md R182 to R185). -/
def onAccumulator (f : Byte → Flags → Byte × Flags) (s : State) : Out :=
  let v := f s.a s.flags
  State.done 4 { s with a := v.1, flags := v.2 }

/-- `ADD B` (0x80), R141. -/
def execAddB (s : State) : Out := aluReg .add .b s

/-- `ADD C` (0x81), R141. -/
def execAddC (s : State) : Out := aluReg .add .c s

/-- `ADD D` (0x82), R141. -/
def execAddD (s : State) : Out := aluReg .add .d s

/-- `ADD E` (0x83), R141. -/
def execAddE (s : State) : Out := aluReg .add .e s

/-- `ADD H` (0x84), R141. -/
def execAddH (s : State) : Out := aluReg .add .h s

/-- `ADD L` (0x85), R141. -/
def execAddL (s : State) : Out := aluReg .add .l s

/-- `ADD A` (0x87), R141. -/
def execAddA (s : State) : Out := aluReg .add .a s

/-- `ADD M` (0x86), R142. -/
def execAddM (s : State) : Out := aluMem .add s

/-- `ADI d8` (0xC6), R143. -/
def execAdi (imm : Byte) (s : State) : Out := aluImm .add imm s

/-- `ADC B` (0x88), R144. -/
def execAdcB (s : State) : Out := aluReg .adc .b s

/-- `ADC C` (0x89), R144. -/
def execAdcC (s : State) : Out := aluReg .adc .c s

/-- `ADC D` (0x8A), R144. -/
def execAdcD (s : State) : Out := aluReg .adc .d s

/-- `ADC E` (0x8B), R144. -/
def execAdcE (s : State) : Out := aluReg .adc .e s

/-- `ADC H` (0x8C), R144. -/
def execAdcH (s : State) : Out := aluReg .adc .h s

/-- `ADC L` (0x8D), R144. -/
def execAdcL (s : State) : Out := aluReg .adc .l s

/-- `ADC A` (0x8F), R144. -/
def execAdcA (s : State) : Out := aluReg .adc .a s

/-- `ADC M` (0x8E), R145. -/
def execAdcM (s : State) : Out := aluMem .adc s

/-- `ACI d8` (0xCE), R146. -/
def execAci (imm : Byte) (s : State) : Out := aluImm .adc imm s

/-- `SUB B` (0x90), R147. -/
def execSubB (s : State) : Out := aluReg .sub .b s

/-- `SUB C` (0x91), R147. -/
def execSubC (s : State) : Out := aluReg .sub .c s

/-- `SUB D` (0x92), R147. -/
def execSubD (s : State) : Out := aluReg .sub .d s

/-- `SUB E` (0x93), R147. -/
def execSubE (s : State) : Out := aluReg .sub .e s

/-- `SUB H` (0x94), R147. -/
def execSubH (s : State) : Out := aluReg .sub .h s

/-- `SUB L` (0x95), R147. -/
def execSubL (s : State) : Out := aluReg .sub .l s

/-- `SUB A` (0x97), R147. -/
def execSubA (s : State) : Out := aluReg .sub .a s

/-- `SUB M` (0x96), R148. -/
def execSubM (s : State) : Out := aluMem .sub s

/-- `SUI d8` (0xD6), R149. -/
def execSui (imm : Byte) (s : State) : Out := aluImm .sub imm s

/-- `SBB B` (0x98), R150. -/
def execSbbB (s : State) : Out := aluReg .sbb .b s

/-- `SBB C` (0x99), R150. -/
def execSbbC (s : State) : Out := aluReg .sbb .c s

/-- `SBB D` (0x9A), R150. -/
def execSbbD (s : State) : Out := aluReg .sbb .d s

/-- `SBB E` (0x9B), R150. -/
def execSbbE (s : State) : Out := aluReg .sbb .e s

/-- `SBB H` (0x9C), R150. -/
def execSbbH (s : State) : Out := aluReg .sbb .h s

/-- `SBB L` (0x9D), R150. -/
def execSbbL (s : State) : Out := aluReg .sbb .l s

/-- `SBB A` (0x9F), R150. -/
def execSbbA (s : State) : Out := aluReg .sbb .a s

/-- `SBB M` (0x9E), R151. -/
def execSbbM (s : State) : Out := aluMem .sbb s

/-- `SBI d8` (0xDE), R152. -/
def execSbi (imm : Byte) (s : State) : Out := aluImm .sbb imm s

/-- `INR B` (0x04), R153. -/
def execInrB (s : State) : Out := incReg .b s

/-- `INR C` (0x0C), R153. -/
def execInrC (s : State) : Out := incReg .c s

/-- `INR D` (0x14), R153. -/
def execInrD (s : State) : Out := incReg .d s

/-- `INR E` (0x1C), R153. -/
def execInrE (s : State) : Out := incReg .e s

/-- `INR H` (0x24), R153. -/
def execInrH (s : State) : Out := incReg .h s

/-- `INR L` (0x2C), R153. -/
def execInrL (s : State) : Out := incReg .l s

/-- `INR A` (0x3C), R153. -/
def execInrA (s : State) : Out := incReg .a s

/-- `INR M` (0x34), R154. -/
def execInrM (s : State) : Out := incM s

/-- `DCR B` (0x05), R155. -/
def execDcrB (s : State) : Out := decReg .b s

/-- `DCR C` (0x0D), R155. -/
def execDcrC (s : State) : Out := decReg .c s

/-- `DCR D` (0x15), R155. -/
def execDcrD (s : State) : Out := decReg .d s

/-- `DCR E` (0x1D), R155. -/
def execDcrE (s : State) : Out := decReg .e s

/-- `DCR H` (0x25), R155. -/
def execDcrH (s : State) : Out := decReg .h s

/-- `DCR L` (0x2D), R155. -/
def execDcrL (s : State) : Out := decReg .l s

/-- `DCR A` (0x3D), R155. -/
def execDcrA (s : State) : Out := decReg .a s

/-- `DCR M` (0x35), R156. -/
def execDcrM (s : State) : Out := decM s

/-- `INX B` (0x03), R157. -/
def execInxB (s : State) : Out := incPair .bc s

/-- `INX D` (0x13), R157. -/
def execInxD (s : State) : Out := incPair .de s

/-- `INX H` (0x23), R157. -/
def execInxH (s : State) : Out := incPair .hl s

/-- `INX SP` (0x33), R157. -/
def execInxSP (s : State) : Out := incPair .sp s

/-- `DCX B` (0x0B), R158. -/
def execDcxB (s : State) : Out := decPair .bc s

/-- `DCX D` (0x1B), R158. -/
def execDcxD (s : State) : Out := decPair .de s

/-- `DCX H` (0x2B), R158. -/
def execDcxH (s : State) : Out := decPair .hl s

/-- `DCX SP` (0x3B), R158. -/
def execDcxSP (s : State) : Out := decPair .sp s

/-- `DAD B` (0x09), R159. -/
def execDadB (s : State) : Out := addPair .bc s

/-- `DAD D` (0x19), R159. -/
def execDadD (s : State) : Out := addPair .de s

/-- `DAD H` (0x29), R159. -/
def execDadH (s : State) : Out := addPair .hl s

/-- `DAD SP` (0x39), R159. -/
def execDadSP (s : State) : Out := addPair .sp s

/-- `DAA` (0x27), R160. -/
def execDaa (s : State) : Out := onAccumulator decimalAdjust s

end Sys2Proof.Machine
end

