-- ==== Sys2Proof/Machine/Branch.lean ====
section
/-! DEFINITION. The jump, call, return and restart instructions (43_branch.md). None changes a flag. -/

namespace Sys2Proof.Machine

/-- A conditional jump: 10 cycles either way (R202 to R209). -/
def jumpIf (cond : Cond) (addr : Word) (s : State) : Out :=
  if condHolds cond s.flags then State.done 10 { s with pc := addr } else s.done 10

/-- The call itself: the PC pushed is the address after the instruction (R210). -/
def callTo (addr : Word) (s : State) : State := { push16 s.pc s with pc := addr }

/-- A conditional call: 17 cycles taken, 11 not (R211 to R218). -/
def callIf (cond : Cond) (addr : Word) (s : State) : Out :=
  if condHolds cond s.flags then (callTo addr s).done 17 else s.done 11

/-- A conditional return: 11 cycles taken, 5 not (R220 to R227). -/
def returnIf (cond : Cond) (s : State) : Out :=
  if condHolds cond s.flags then (returnFromStack s).done 11 else s.done 5

/-- `RST n` (R228). -/
def restart (n : BitVec 3) (s : State) : Out := (callTo (restartTarget n) s).done 11

/-- `JMP a16` (0xC3), R201. -/
def execJmp (addr : Word) (s : State) : Out := State.done 10 { s with pc := addr }

/-- `JNZ a16` (0xC2), R202. -/
def execJnz (addr : Word) (s : State) : Out := jumpIf .nz addr s

/-- `JZ a16` (0xCA), R203. -/
def execJz (addr : Word) (s : State) : Out := jumpIf .z addr s

/-- `JNC a16` (0xD2), R204. -/
def execJnc (addr : Word) (s : State) : Out := jumpIf .nc addr s

/-- `JC a16` (0xDA), R205. -/
def execJc (addr : Word) (s : State) : Out := jumpIf .c addr s

/-- `JPO a16` (0xE2), R206. -/
def execJpo (addr : Word) (s : State) : Out := jumpIf .po addr s

/-- `JPE a16` (0xEA), R207. -/
def execJpe (addr : Word) (s : State) : Out := jumpIf .pe addr s

/-- `JP a16` (0xF2), R208. -/
def execJp (addr : Word) (s : State) : Out := jumpIf .p addr s

/-- `JM a16` (0xFA), R209. -/
def execJm (addr : Word) (s : State) : Out := jumpIf .m addr s

/-- `CALL a16` (0xCD), R210. -/
def execCall (addr : Word) (s : State) : Out := State.done 17 (callTo addr s)

/-- `CNZ a16` (0xC4), R211. -/
def execCnz (addr : Word) (s : State) : Out := callIf .nz addr s

/-- `CZ a16` (0xCC), R212. -/
def execCz (addr : Word) (s : State) : Out := callIf .z addr s

/-- `CNC a16` (0xD4), R213. -/
def execCnc (addr : Word) (s : State) : Out := callIf .nc addr s

/-- `CC a16` (0xDC), R214. -/
def execCc (addr : Word) (s : State) : Out := callIf .c addr s

/-- `CPO a16` (0xE4), R215. -/
def execCpo (addr : Word) (s : State) : Out := callIf .po addr s

/-- `CPE a16` (0xEC), R216. -/
def execCpe (addr : Word) (s : State) : Out := callIf .pe addr s

/-- `CP a16` (0xF4), R217. -/
def execCp (addr : Word) (s : State) : Out := callIf .p addr s

/-- `CM a16` (0xFC), R218. -/
def execCm (addr : Word) (s : State) : Out := callIf .m addr s

/-- `RET` (0xC9), R219. -/
def execRet (s : State) : Out := State.done 10 (returnFromStack s)

/-- `RNZ` (0xC0), R220. -/
def execRnz (s : State) : Out := returnIf .nz s

/-- `RZ` (0xC8), R221. -/
def execRz (s : State) : Out := returnIf .z s

/-- `RNC` (0xD0), R222. -/
def execRnc (s : State) : Out := returnIf .nc s

/-- `RC` (0xD8), R223. -/
def execRc (s : State) : Out := returnIf .c s

/-- `RPO` (0xE0), R224. -/
def execRpo (s : State) : Out := returnIf .po s

/-- `RPE` (0xE8), R225. -/
def execRpe (s : State) : Out := returnIf .pe s

/-- `RP` (0xF0), R226. -/
def execRp (s : State) : Out := returnIf .p s

/-- `RM` (0xF8), R227. -/
def execRm (s : State) : Out := returnIf .m s

/-- `RST 0` (0xC7), R228. -/
def execRst0 (s : State) : Out := restart 0 s

/-- `RST 1` (0xCF), R228. -/
def execRst1 (s : State) : Out := restart 1 s

/-- `RST 2` (0xD7), R228. -/
def execRst2 (s : State) : Out := restart 2 s

/-- `RST 3` (0xDF), R228. -/
def execRst3 (s : State) : Out := restart 3 s

/-- `RST 4` (0xE7), R228. -/
def execRst4 (s : State) : Out := restart 4 s

/-- `RST 5` (0xEF), R228. -/
def execRst5 (s : State) : Out := restart 5 s

/-- `RST 6` (0xF7), R228. -/
def execRst6 (s : State) : Out := restart 6 s

/-- `RST 7` (0xFF), R228. -/
def execRst7 (s : State) : Out := restart 7 s

/-- `PCHL` (0xE9), R229. -/
def execPchl (s : State) : Out := State.done 5 { s with pc := s.hl }

end Sys2Proof.Machine
end

