-- ==== Sys2Proof/Machine/DataTransfer.lean ====
section
/-! DEFINITION. The data transfer instructions (40_data_transfer.md). None changes a flag. -/

namespace Sys2Proof.Machine

/-- `MOV r1,r2` (R121). -/
def movReg (dst src : Reg8) (s : State) : Out := (s.setReg dst (s.reg src)).done 5

/-- `MOV r,M`: the address is the old HL (R122). -/
def movFromM (dst : Reg8) (s : State) : Out :=
  let m := readM s
  (m.2.setReg dst m.1).done 7

/-- `MOV M,r` (R123). -/
def movToM (src : Reg8) (s : State) : Out := (writeM (s.reg src) s).done 7

/-- `MVI r,d8` (R124). -/
def mviReg (dst : Reg8) (imm : Byte) (s : State) : Out := (s.setReg dst imm).done 7

/-- `MVI M,d8` (R125). -/
def mviM (imm : Byte) (s : State) : Out := (writeM imm s).done 10

/-- `LXI rp,d16` (R126). -/
def loadPairImm (p : RegPair) (imm : Word) (s : State) : Out := (s.setPair p imm).done 10

/-- `LDA a16` (R127). -/
def loadDirect (addr : Word) (s : State) : Out :=
  let m := memRead addr s
  State.done 13 { m.2 with a := m.1 }

/-- `STA a16` (R128). -/
def storeDirect (addr : Word) (s : State) : Out := (memWrite addr s.a s).done 13

/-- `LHLD a16`: L from the address, H from the next (R129). -/
def loadHLDirect (addr : Word) (s : State) : Out :=
  let m := memRead16 addr s
  (m.2.setPair .hl m.1).done 16

/-- `SHLD a16`: L to the address, H to the next (R130). -/
def storeHLDirect (addr : Word) (s : State) : Out := (memWrite16 addr s.hl s).done 16

/-- `LDAX rp` (R131). -/
def loadIndirect (p : RegPair) (s : State) : Out :=
  let m := memRead (s.pair p) s
  State.done 7 { m.2 with a := m.1 }

/-- `STAX rp` (R132). -/
def storeIndirect (p : RegPair) (s : State) : Out := (memWrite (s.pair p) s.a s).done 7

/-- `XCHG` (R133). -/
def exchangeDEHL (s : State) : Out := ((s.setPair .hl s.de).setPair .de s.hl).done 4

/-- `MOV B,B` (0x40), R121. -/
def execMovBB (s : State) : Out := movReg .b .b s

/-- `MOV B,C` (0x41), R121. -/
def execMovBC (s : State) : Out := movReg .b .c s

/-- `MOV B,D` (0x42), R121. -/
def execMovBD (s : State) : Out := movReg .b .d s

/-- `MOV B,E` (0x43), R121. -/
def execMovBE (s : State) : Out := movReg .b .e s

/-- `MOV B,H` (0x44), R121. -/
def execMovBH (s : State) : Out := movReg .b .h s

/-- `MOV B,L` (0x45), R121. -/
def execMovBL (s : State) : Out := movReg .b .l s

/-- `MOV B,A` (0x47), R121. -/
def execMovBA (s : State) : Out := movReg .b .a s

/-- `MOV C,B` (0x48), R121. -/
def execMovCB (s : State) : Out := movReg .c .b s

/-- `MOV C,C` (0x49), R121. -/
def execMovCC (s : State) : Out := movReg .c .c s

/-- `MOV C,D` (0x4A), R121. -/
def execMovCD (s : State) : Out := movReg .c .d s

/-- `MOV C,E` (0x4B), R121. -/
def execMovCE (s : State) : Out := movReg .c .e s

/-- `MOV C,H` (0x4C), R121. -/
def execMovCH (s : State) : Out := movReg .c .h s

/-- `MOV C,L` (0x4D), R121. -/
def execMovCL (s : State) : Out := movReg .c .l s

/-- `MOV C,A` (0x4F), R121. -/
def execMovCA (s : State) : Out := movReg .c .a s

/-- `MOV D,B` (0x50), R121. -/
def execMovDB (s : State) : Out := movReg .d .b s

/-- `MOV D,C` (0x51), R121. -/
def execMovDC (s : State) : Out := movReg .d .c s

/-- `MOV D,D` (0x52), R121. -/
def execMovDD (s : State) : Out := movReg .d .d s

/-- `MOV D,E` (0x53), R121. -/
def execMovDE (s : State) : Out := movReg .d .e s

/-- `MOV D,H` (0x54), R121. -/
def execMovDH (s : State) : Out := movReg .d .h s

/-- `MOV D,L` (0x55), R121. -/
def execMovDL (s : State) : Out := movReg .d .l s

/-- `MOV D,A` (0x57), R121. -/
def execMovDA (s : State) : Out := movReg .d .a s

/-- `MOV E,B` (0x58), R121. -/
def execMovEB (s : State) : Out := movReg .e .b s

/-- `MOV E,C` (0x59), R121. -/
def execMovEC (s : State) : Out := movReg .e .c s

/-- `MOV E,D` (0x5A), R121. -/
def execMovED (s : State) : Out := movReg .e .d s

/-- `MOV E,E` (0x5B), R121. -/
def execMovEE (s : State) : Out := movReg .e .e s

/-- `MOV E,H` (0x5C), R121. -/
def execMovEH (s : State) : Out := movReg .e .h s

/-- `MOV E,L` (0x5D), R121. -/
def execMovEL (s : State) : Out := movReg .e .l s

/-- `MOV E,A` (0x5F), R121. -/
def execMovEA (s : State) : Out := movReg .e .a s

/-- `MOV H,B` (0x60), R121. -/
def execMovHB (s : State) : Out := movReg .h .b s

/-- `MOV H,C` (0x61), R121. -/
def execMovHC (s : State) : Out := movReg .h .c s

/-- `MOV H,D` (0x62), R121. -/
def execMovHD (s : State) : Out := movReg .h .d s

/-- `MOV H,E` (0x63), R121. -/
def execMovHE (s : State) : Out := movReg .h .e s

/-- `MOV H,H` (0x64), R121. -/
def execMovHH (s : State) : Out := movReg .h .h s

/-- `MOV H,L` (0x65), R121. -/
def execMovHL (s : State) : Out := movReg .h .l s

/-- `MOV H,A` (0x67), R121. -/
def execMovHA (s : State) : Out := movReg .h .a s

/-- `MOV L,B` (0x68), R121. -/
def execMovLB (s : State) : Out := movReg .l .b s

/-- `MOV L,C` (0x69), R121. -/
def execMovLC (s : State) : Out := movReg .l .c s

/-- `MOV L,D` (0x6A), R121. -/
def execMovLD (s : State) : Out := movReg .l .d s

/-- `MOV L,E` (0x6B), R121. -/
def execMovLE (s : State) : Out := movReg .l .e s

/-- `MOV L,H` (0x6C), R121. -/
def execMovLH (s : State) : Out := movReg .l .h s

/-- `MOV L,L` (0x6D), R121. -/
def execMovLL (s : State) : Out := movReg .l .l s

/-- `MOV L,A` (0x6F), R121. -/
def execMovLA (s : State) : Out := movReg .l .a s

/-- `MOV A,B` (0x78), R121. -/
def execMovAB (s : State) : Out := movReg .a .b s

/-- `MOV A,C` (0x79), R121. -/
def execMovAC (s : State) : Out := movReg .a .c s

/-- `MOV A,D` (0x7A), R121. -/
def execMovAD (s : State) : Out := movReg .a .d s

/-- `MOV A,E` (0x7B), R121. -/
def execMovAE (s : State) : Out := movReg .a .e s

/-- `MOV A,H` (0x7C), R121. -/
def execMovAH (s : State) : Out := movReg .a .h s

/-- `MOV A,L` (0x7D), R121. -/
def execMovAL (s : State) : Out := movReg .a .l s

/-- `MOV A,A` (0x7F), R121. -/
def execMovAA (s : State) : Out := movReg .a .a s

/-- `MOV B,M` (0x46), R122. -/
def execMovBM (s : State) : Out := movFromM .b s

/-- `MOV C,M` (0x4E), R122. -/
def execMovCM (s : State) : Out := movFromM .c s

/-- `MOV D,M` (0x56), R122. -/
def execMovDM (s : State) : Out := movFromM .d s

/-- `MOV E,M` (0x5E), R122. -/
def execMovEM (s : State) : Out := movFromM .e s

/-- `MOV H,M` (0x66), R122. -/
def execMovHM (s : State) : Out := movFromM .h s

/-- `MOV L,M` (0x6E), R122. -/
def execMovLM (s : State) : Out := movFromM .l s

/-- `MOV A,M` (0x7E), R122. -/
def execMovAM (s : State) : Out := movFromM .a s

/-- `MOV M,B` (0x70), R123. -/
def execMovMB (s : State) : Out := movToM .b s

/-- `MOV M,C` (0x71), R123. -/
def execMovMC (s : State) : Out := movToM .c s

/-- `MOV M,D` (0x72), R123. -/
def execMovMD (s : State) : Out := movToM .d s

/-- `MOV M,E` (0x73), R123. -/
def execMovME (s : State) : Out := movToM .e s

/-- `MOV M,H` (0x74), R123. -/
def execMovMH (s : State) : Out := movToM .h s

/-- `MOV M,L` (0x75), R123. -/
def execMovML (s : State) : Out := movToM .l s

/-- `MOV M,A` (0x77), R123. -/
def execMovMA (s : State) : Out := movToM .a s

/-- `MVI B,d8` (0x06), R124. -/
def execMviB (imm : Byte) (s : State) : Out := mviReg .b imm s

/-- `MVI C,d8` (0x0E), R124. -/
def execMviC (imm : Byte) (s : State) : Out := mviReg .c imm s

/-- `MVI D,d8` (0x16), R124. -/
def execMviD (imm : Byte) (s : State) : Out := mviReg .d imm s

/-- `MVI E,d8` (0x1E), R124. -/
def execMviE (imm : Byte) (s : State) : Out := mviReg .e imm s

/-- `MVI H,d8` (0x26), R124. -/
def execMviH (imm : Byte) (s : State) : Out := mviReg .h imm s

/-- `MVI L,d8` (0x2E), R124. -/
def execMviL (imm : Byte) (s : State) : Out := mviReg .l imm s

/-- `MVI A,d8` (0x3E), R124. -/
def execMviA (imm : Byte) (s : State) : Out := mviReg .a imm s

/-- `MVI M,d8` (0x36), R125. -/
def execMviM (imm : Byte) (s : State) : Out := mviM imm s

/-- `LXI B,d16` (0x01), R126. -/
def execLxiB (imm : Word) (s : State) : Out := loadPairImm .bc imm s

/-- `LXI D,d16` (0x11), R126. -/
def execLxiD (imm : Word) (s : State) : Out := loadPairImm .de imm s

/-- `LXI H,d16` (0x21), R126. -/
def execLxiH (imm : Word) (s : State) : Out := loadPairImm .hl imm s

/-- `LXI SP,d16` (0x31), R126. -/
def execLxiSP (imm : Word) (s : State) : Out := loadPairImm .sp imm s

/-- `LDA a16` (0x3A), R127. -/
def execLda (addr : Word) (s : State) : Out := loadDirect addr s

/-- `STA a16` (0x32), R128. -/
def execSta (addr : Word) (s : State) : Out := storeDirect addr s

/-- `LHLD a16` (0x2A), R129. -/
def execLhld (addr : Word) (s : State) : Out := loadHLDirect addr s

/-- `SHLD a16` (0x22), R130. -/
def execShld (addr : Word) (s : State) : Out := storeHLDirect addr s

/-- `LDAX B` (0x0A), R131. -/
def execLdaxB (s : State) : Out := loadIndirect .bc s

/-- `LDAX D` (0x1A), R131. -/
def execLdaxD (s : State) : Out := loadIndirect .de s

/-- `STAX B` (0x02), R132. -/
def execStaxB (s : State) : Out := storeIndirect .bc s

/-- `STAX D` (0x12), R132. -/
def execStaxD (s : State) : Out := storeIndirect .de s

/-- `XCHG` (0xEB), R133. -/
def execXchg (s : State) : Out := exchangeDEHL s

end Sys2Proof.Machine
end

