-- ==== Sys2Proof/Machine/Logical.lean ====
section
/-! DEFINITION. The logical, compare, rotate and carry instructions (42_logical.md). -/

namespace Sys2Proof.Machine

/-- `ANA B` (0xA0), R170. -/
def execAnaB (s : State) : Out := aluReg .ana .b s

/-- `ANA C` (0xA1), R170. -/
def execAnaC (s : State) : Out := aluReg .ana .c s

/-- `ANA D` (0xA2), R170. -/
def execAnaD (s : State) : Out := aluReg .ana .d s

/-- `ANA E` (0xA3), R170. -/
def execAnaE (s : State) : Out := aluReg .ana .e s

/-- `ANA H` (0xA4), R170. -/
def execAnaH (s : State) : Out := aluReg .ana .h s

/-- `ANA L` (0xA5), R170. -/
def execAnaL (s : State) : Out := aluReg .ana .l s

/-- `ANA A` (0xA7), R170. -/
def execAnaA (s : State) : Out := aluReg .ana .a s

/-- `ANA M` (0xA6), R171. -/
def execAnaM (s : State) : Out := aluMem .ana s

/-- `ANI d8` (0xE6), R172. -/
def execAni (imm : Byte) (s : State) : Out := aluImm .ana imm s

/-- `XRA B` (0xA8), R173. -/
def execXraB (s : State) : Out := aluReg .xra .b s

/-- `XRA C` (0xA9), R173. -/
def execXraC (s : State) : Out := aluReg .xra .c s

/-- `XRA D` (0xAA), R173. -/
def execXraD (s : State) : Out := aluReg .xra .d s

/-- `XRA E` (0xAB), R173. -/
def execXraE (s : State) : Out := aluReg .xra .e s

/-- `XRA H` (0xAC), R173. -/
def execXraH (s : State) : Out := aluReg .xra .h s

/-- `XRA L` (0xAD), R173. -/
def execXraL (s : State) : Out := aluReg .xra .l s

/-- `XRA A` (0xAF), R173. -/
def execXraA (s : State) : Out := aluReg .xra .a s

/-- `XRA M` (0xAE), R174. -/
def execXraM (s : State) : Out := aluMem .xra s

/-- `XRI d8` (0xEE), R175. -/
def execXri (imm : Byte) (s : State) : Out := aluImm .xra imm s

/-- `ORA B` (0xB0), R176. -/
def execOraB (s : State) : Out := aluReg .ora .b s

/-- `ORA C` (0xB1), R176. -/
def execOraC (s : State) : Out := aluReg .ora .c s

/-- `ORA D` (0xB2), R176. -/
def execOraD (s : State) : Out := aluReg .ora .d s

/-- `ORA E` (0xB3), R176. -/
def execOraE (s : State) : Out := aluReg .ora .e s

/-- `ORA H` (0xB4), R176. -/
def execOraH (s : State) : Out := aluReg .ora .h s

/-- `ORA L` (0xB5), R176. -/
def execOraL (s : State) : Out := aluReg .ora .l s

/-- `ORA A` (0xB7), R176. -/
def execOraA (s : State) : Out := aluReg .ora .a s

/-- `ORA M` (0xB6), R177. -/
def execOraM (s : State) : Out := aluMem .ora s

/-- `ORI d8` (0xF6), R178. -/
def execOri (imm : Byte) (s : State) : Out := aluImm .ora imm s

/-- `CMP B` (0xB8), R179. -/
def execCmpB (s : State) : Out := aluReg .cmp .b s

/-- `CMP C` (0xB9), R179. -/
def execCmpC (s : State) : Out := aluReg .cmp .c s

/-- `CMP D` (0xBA), R179. -/
def execCmpD (s : State) : Out := aluReg .cmp .d s

/-- `CMP E` (0xBB), R179. -/
def execCmpE (s : State) : Out := aluReg .cmp .e s

/-- `CMP H` (0xBC), R179. -/
def execCmpH (s : State) : Out := aluReg .cmp .h s

/-- `CMP L` (0xBD), R179. -/
def execCmpL (s : State) : Out := aluReg .cmp .l s

/-- `CMP A` (0xBF), R179. -/
def execCmpA (s : State) : Out := aluReg .cmp .a s

/-- `CMP M` (0xBE), R180. -/
def execCmpM (s : State) : Out := aluMem .cmp s

/-- `CPI d8` (0xFE), R181. -/
def execCpi (imm : Byte) (s : State) : Out := aluImm .cmp imm s

/-- `RLC` (0x07), R182. -/
def execRlc (s : State) : Out := onAccumulator rotateLeft s

/-- `RRC` (0x0F), R183. -/
def execRrc (s : State) : Out := onAccumulator rotateRight s

/-- `RAL` (0x17), R184. -/
def execRal (s : State) : Out := onAccumulator rotateLeftCarry s

/-- `RAR` (0x1F), R185. -/
def execRar (s : State) : Out := onAccumulator rotateRightCarry s

/-- `CMA` (0x2F), R186. -/
def execCma (s : State) : Out := State.done 4 { s with a := ~~~s.a }

/-- `CMC` (0x3F), R187. -/
def execCmc (s : State) : Out := State.done 4 { s with flags := { s.flags with carry := !s.flags.carry } }

/-- `STC` (0x37), R188. -/
def execStc (s : State) : Out := State.done 4 { s with flags := { s.flags with carry := true } }

end Sys2Proof.Machine
end

