-- ==== Sys2Proof/Machine/Scheduler.lean ====
section
/-! DEFINITION. The operations of the discrete-event scheduler (48_scheduler.md R372 to R374, R376). -/

namespace Sys2Proof.Machine

/-- `create_timer(delay_ns, callback)`: the handle and the state with the timer pending (R372). The handle is the
sequence number, which is never used again. Log entry 8. -/
def createTimer (delayNs : Nat) (k : Chan) (s : State) : Nat × State :=
  let t : Timer := { handle := s.sched.nextSeq, deadline := s.sched.now + delayNs, seq := s.sched.nextSeq, chan := k }
  (t.handle, { s with sched := { s.sched with timers := s.sched.timers ++ [t], nextSeq := s.sched.nextSeq + 1 } })

/-- `cancel(handle)`: a timer that is no longer pending is not touched (R373). -/
def cancelTimer (handle : Nat) (s : State) : State :=
  { s with sched := { s.sched with timers := s.sched.timers.filter (fun t => t.handle != handle) } }

/-- Firing order: increasing deadline, and among equal deadlines creation order (R376). -/
def Timer.before (t u : Timer) : Bool :=
  decide (t.deadline < u.deadline) || (t.deadline == u.deadline && decide (t.seq < u.seq))

/-- The pending timer that fires first (R376). -/
def earliest : List Timer → Option Timer
  | [] => none
  | t :: rest =>
    match earliest rest with
    | none => some t
    | some u => if u.before t then some u else some t

/-- `ms_until_next()`: milliseconds to the soonest deadline, rounded up, 0 when one is due (R374). -/
def msUntilNext (s : State) : Option Nat :=
  match earliest s.sched.timers with
  | none => none
  | some t => some ((t.deadline - s.sched.now + 999999) / 1000000)

end Sys2Proof.Machine
end

