-- ==== Sys2Proof/Machine/Uart.lean ====
section
/-! DEFINITION. The UART bank and XON/XOFF flow control (46_uart_bank.md). -/

namespace Sys2Proof.Machine

/-- The state of channel k. -/
def State.chan (s : State) (k : Chan) : Channel :=
  match k with
  | .c0 => s.uart.ch0
  | .c1 => s.uart.ch1
  | .c2 => s.uart.ch2
  | .c3 => s.uart.ch3

/-- Replaces the state of channel k. -/
def State.setChan (k : Chan) (c : Channel) (s : State) : State :=
  { s with uart :=
      match k with
      | .c0 => { s.uart with ch0 := c }
      | .c1 => { s.uart with ch1 := c }
      | .c2 => { s.uart with ch2 := c }
      | .c3 => { s.uart with ch3 := c } }

/-- Whether a receive FIFO holds a byte. -/
def State.rxHasByte (s : State) (k : Chan) : Bool := !(s.chan k).fifo.isEmpty

/-- `interrupt_pending`: some receive FIFO is non-empty (10_state.md R41; R318). -/
def State.interruptPending (s : State) : Bool :=
  s.rxHasByte .c0 || s.rxHasByte .c1 || s.rxHasByte .c2 || s.rxHasByte .c3

/-- `TxWrite(k, b)`: the byte into the holding register and a character-time timer started (R308). -/
def txWrite (k : Chan) (b : Byte) (s : State) : State :=
  let t := createTimer Config.serialCharDelayNs k s
  t.2.setChan k { s.chan k with txReady := false, txByte := b, txTimer := some t.1 }

/-- The re-arm of `TxTimerFire` under backpressure: a fresh delay, nothing delivered (R309). -/
def txRearm (k : Chan) (s : State) : State :=
  let d := drawRearmNs s
  let t := createTimer d.1 k d.2
  t.2.setChan k { s.chan k with txTimer := some t.1 }

/-- The delivery of `TxTimerFire`: the byte to the endpoint attached now, dropped where there is none (R309). -/
def txDeliver (k : Chan) (s : State) : State :=
  let s1 := if (s.chan k).endpoint = .null then s else s.emit (.epSend k (s.chan k).txByte)
  s1.setChan k { s.chan k with txReady := true }

/-- `TxTimerFire(k)`: the callback of channel k's timer (R309). Backpressure is asked only of an attached endpoint. -/
def txTimerFire (k : Chan) (s : State) : State :=
  let s1 := s.setChan k { s.chan k with txTimer := none }
  if (s1.chan k).endpoint = .null then txDeliver k s1
  else
    let p := drawBackpressure s1
    if p.1 then txRearm k p.2 else txDeliver k p.2

/-- `FlowXoff(k)` (R316). -/
def flowXoff (k : Chan) (s : State) : State :=
  let c := s.chan k
  if c.endpoint ≠ .null ∧ Config.xoffThreshold ≤ c.fifo.length ∧ c.xoffSent = false then
    (s.emit (.epXoff k)).setChan k { c with xoffSent := true, xoffSentCount := c.xoffSentCount + 1 }
  else s

/-- `FlowXon(k)` (R316). -/
def flowXon (k : Chan) (s : State) : State :=
  let c := s.chan k
  if c.endpoint ≠ .null ∧ c.fifo.length ≤ Config.xonThreshold ∧ c.xoffSent = true then
    (s.emit (.epXon k)).setChan k { c with xoffSent := false, xonSentCount := c.xonSentCount + 1 }
  else s

/-- The bytes that never enter a FIFO (R314). -/
def isFlowControl (b : Byte) : Bool := b == Config.xonByte || b == Config.xoffByte

/-- The push of `enqueue_rx`: a full FIFO loses its oldest byte, which is counted (R313). -/
def pushRx (b : Byte) (c : Channel) : Channel :=
  if c.fifo.length = Config.rxFifoMax then
    { c with fifo := c.fifo.drop 1 ++ [b], rxOverrunDrops := c.rxOverrunDrops + 1 }
  else { c with fifo := c.fifo ++ [b] }

/-- `enqueue_rx(k, b)` (R313). -/
def enqueueRx (k : Chan) (b : Byte) (s : State) : State :=
  if isFlowControl b then s
  else flowXon k (flowXoff k (s.setChan k (pushRx b (s.chan k))))

/-- The insertion of a filtered batch: as many as fit; then up to half the FIFO of old bytes gives way; the newest surplus
is lost; every lost byte is counted (R319). -/
def pushBatch (data : List Byte) (c : Channel) : Channel :=
  let free := Config.rxFifoMax - c.fifo.length
  if data.length ≤ free then { c with fifo := c.fifo ++ data }
  else
    let r := data.length - free
    let d := min r Config.batchDropMax
    { c with fifo := (c.fifo ++ data.take free).drop d ++ (data.drop free).take d
             rxOverrunDrops := c.rxOverrunDrops + r }

/-- `enqueue_rx_batch(k, bytes)` (R319). -/
def enqueueRxBatch (k : Chan) (bytes : List Byte) (s : State) : State :=
  let data := bytes.filter (fun b => !isFlowControl b)
  flowXon k (flowXoff k (s.setChan k (pushBatch data (s.chan k))))

/-- `RxPop(k)`: the oldest byte, 0x00 when there is none (R317). -/
def rxPop (k : Chan) (s : State) : Byte × State :=
  match (s.chan k).fifo with
  | [] => (0x00#8, s)
  | b :: rest => (b, flowXon k (s.setChan k { s.chan k with fifo := rest }))

/-- The due timer that fires next, if one is due (48_scheduler.md R378). -/
def nextDue (s : State) : Option Timer :=
  (earliest s.sched.timers).filter (fun t => decide (t.deadline ≤ s.sched.now))

/-- One turn of `FireDue`'s loop: the timer is removed before its callback runs (48_scheduler.md R376, R378). -/
def fireTimer (t : Timer) (s : State) : State :=
  txTimerFire t.chan { s with sched := { s.sched with timers := s.sched.timers.erase t } }

/-- At most `fuel` turns of `FireDue`'s loop. -/
def fireLoop : Nat → State → State
  | 0, s => s
  | fuel + 1, s =>
    match nextDue s with
    | none => s
    | some t => fireLoop fuel (fireTimer t s)

/-- `FireDue()` (48_scheduler.md R378). A callback's new timer is never due at once, so as many turns as there are pending
timers are enough. -/
def fireDue (s : State) : State := fireLoop s.sched.timers.length s

end Sys2Proof.Machine
end

