-- ==== Sys2Proof/Machine/Ports.lean ====
section
/-! DEFINITION. The i8080-visible I/O ports (45_io_ports.md): `PortRead(p)` and `PortWrite(p, v)`. -/

namespace Sys2Proof.Machine

/-- The seven input ports (10_state.md R49). -/
inductive InPort where
  | txPoll | busStatus | obData | obOffset | rxPoll | uartData | uartStatus
  deriving DecidableEq, Repr

/-- The input port of a port number, none where it is undefined (R271 to R277, R290). -/
def inPortOf (p : Byte) : Option InPort :=
  if p = 0x00#8 then some .txPoll
  else if p = 0x01#8 then some .busStatus
  else if p = 0x02#8 then some .obData
  else if p = 0x03#8 then some .obOffset
  else if p = 0x04#8 then some .rxPoll
  else if p = 0x06#8 then some .uartData
  else if p = 0x0E#8 then some .uartStatus
  else none

/-- The nine output ports (10_state.md R49). -/
inductive OutPort where
  | clearPrime | ib | ib9 | warmReset | haltCpu | uartSelect | uartData | rbi | uartCommand
  deriving DecidableEq, Repr

/-- The output port of a port number, none where it is undefined (R280 to R288, R290). -/
def outPortOf (p : Byte) : Option OutPort :=
  if p = 0x00#8 then some .clearPrime
  else if p = 0x01#8 then some .ib
  else if p = 0x02#8 then some .warmReset
  else if p = 0x03#8 then some .haltCpu
  else if p = 0x05#8 then some .uartSelect
  else if p = 0x06#8 then some .uartData
  else if p = 0x07#8 then some .rbi
  else if p = 0x0E#8 then some .uartCommand
  else if p = 0x11#8 then some .ib9
  else none

/-- `IN 0x00`: bit n is 1 while channel n is sending (R271). -/
def txPollByte (s : State) : Byte :=
  bitAt 0 (!(s.chan .c0).txReady) ||| bitAt 1 (!(s.chan .c1).txReady) |||
  bitAt 2 (!(s.chan .c2).txReady) ||| bitAt 3 (!(s.chan .c3).txReady)

/-- `IN 0x01`: the 2200 bus status (R272). -/
def busStatusByte (b : BusLatches) : Byte :=
  (b.ioOffset.zeroExtend 8 <<< 5) ||| bitAt 4 b.selected ||| bitAt 3 (b.selected && !b.cpb) |||
  bitAt 2 b.primeSeen ||| bitAt 1 b.cbsSeen ||| bitAt 0 b.obsSeen

/-- `IN 0x04`: bit n is 1 while FIFO n holds a byte (R275). -/
def rxPollByte (s : State) : Byte :=
  bitAt 0 (s.rxHasByte .c0) ||| bitAt 1 (s.rxHasByte .c1) ||| bitAt 2 (s.rxHasByte .c2) ||| bitAt 3 (s.rxHasByte .c3)

/-- `IN 0x0E`: the status of the selected channel; tx-empty is "tx_ready and no outstanding timer" (R277). -/
def uartStatusByte (s : State) : Byte :=
  let k := s.uart.sel
  bitAt 7 (decide (k.toNat < s.cfg.numTerms.toNat)) |||
  bitAt 2 ((s.chan k).txReady && (s.chan k).txTimer.isNone) |||
  bitAt 1 (s.rxHasByte k) ||| bitAt 0 (s.chan k).txReady

/-- The value and the side effects of an input port (R271 to R277). -/
def readInPort (p : InPort) (s : State) : Byte × State :=
  match p with
  | .txPoll => (txPollByte s, s)
  | .busStatus => (busStatusByte s.bus, s)
  | .obData => (~~~s.bus.obscbsData, { s with bus := { s.bus with obsSeen := false, cbsSeen := false } })
  | .obOffset => (s.bus.obscbsOffset.zeroExtend 8 <<< 5, s)
  | .rxPoll => (rxPollByte s, s)
  | .uartData => rxPop s.uart.sel s
  | .uartStatus => (uartStatusByte s, s)

/-- `PortRead(p)` (20_memory.md R78); an undefined port is a fault and a draw (R290). -/
def portRead (p : Byte) (s : State) : Byte × State :=
  match inPortOf p with
  | some q => readInPort q s
  | none => drawByte (s.raise (.undefinedPortRead p))

/-- The channel a one-hot byte selects (R285). -/
def uartSelectOf (v : Byte) : Option Chan :=
  if v = 0x01#8 then some .c0
  else if v = 0x02#8 then some .c1
  else if v = 0x04#8 then some .c2
  else if v = 0x08#8 then some .c3
  else none

/-- The 9-bit value of an `ibs` event: bit 8, then the complement of the byte written (R281, R282). -/
def ibsValue (bit8 : Bool) (v : Byte) : BitVec 9 := BitVec.ofBool bit8 ++ ~~~v

/-- The action of an output port (R280 to R288). -/
def writeOutPort (p : OutPort) (v : Byte) (s : State) : State :=
  match p with
  | .clearPrime => { s with bus := { s.bus with primeSeen := false } }
  | .ib => s.emit (.ibs (ibsValue false v))
  | .ib9 => s.emit (.ibs (ibsValue true v))
  | .warmReset => { s.emit .sysWarmReset with bus := { s.bus with primeSeen := true } }
  | .haltCpu => s.emit .cpuHalt
  | .uartSelect =>
    match uartSelectOf v with
    | some k => { s with uart := { s.uart with sel := k } }
    | none => s.raise (.badUartSelect v)
  | .uartData =>
    if (s.chan s.uart.sel).txReady then txWrite s.uart.sel v s else s.raise (.txOverrun s.uart.sel)
  | .rbi => { s with bus := { s.bus with rbi := v } }
  | .uartCommand => s

/-- `PortWrite(p, v)` (20_memory.md R78); an undefined port is a fault and nothing else (R290). -/
def portWrite (p v : Byte) (s : State) : State :=
  match outPortOf p with
  | some q => writeOutPort q v s
  | none => s.raise (.undefinedPortWrite p)

end Sys2Proof.Machine
end

