-- ==== Sys2Proof/Machine/StackIoControl.lean ====
section
/-! DEFINITION. The stack, input/output and machine-control instructions and the illegal opcodes (44_stack_io_control.md). -/

namespace Sys2Proof.Machine

/-- `PUSH` (R240, R241). -/
def pushPair (p : StackPair) (s : State) : Out := (push16 (s.stackPair p) s).done 11

/-- `POP` (R242, R243). -/
def popPair (p : StackPair) (s : State) : Out :=
  let r := pop16 s
  (r.2.setStackPair p r.1).done 10

/-- `XTHL`: the reads first, then the write at SP+1, then the write at SP; SP is not changed (R244). -/
def exchangeStackHL (s : State) : Out :=
  let r := memRead16 s.sp s
  let s1 := memWrite (s.sp + 1#16) s.h r.2
  let s2 := memWrite s.sp s.l s1
  (s2.setPair .hl r.1).done 18

/-- `IN p8` (R246). -/
def inputFrom (port : Byte) (s : State) : Out :=
  let r := portRead port s
  State.done 10 { r.2 with a := r.1 }

/-- `OUT p8` (R247). -/
def outputTo (port : Byte) (s : State) : Out := (portWrite port s.a s).done 10

/-- An illegal opcode: the fault names the byte and its address, nothing else changes, and the sentinel is returned (R256). -/
def illegalOpcode (op : Byte) (s : State) : Out :=
  (s.raise (.illegalOpcode op (s.pc - 1#16))).done Config.sentinel

/-- `PUSH B` (0xC5), R240. -/
def execPushB (s : State) : Out := pushPair .bc s

/-- `PUSH D` (0xD5), R240. -/
def execPushD (s : State) : Out := pushPair .de s

/-- `PUSH H` (0xE5), R240. -/
def execPushH (s : State) : Out := pushPair .hl s

/-- `PUSH PSW` (0xF5), R241. -/
def execPushPSW (s : State) : Out := pushPair .psw s

/-- `POP PSW` (0xF1), R242. -/
def execPopPSW (s : State) : Out := popPair .psw s

/-- `POP B` (0xC1), R243. -/
def execPopB (s : State) : Out := popPair .bc s

/-- `POP D` (0xD1), R243. -/
def execPopD (s : State) : Out := popPair .de s

/-- `POP H` (0xE1), R243. -/
def execPopH (s : State) : Out := popPair .hl s

/-- `XTHL` (0xE3), R244. -/
def execXthl (s : State) : Out := exchangeStackHL s

/-- `SPHL` (0xF9), R245. -/
def execSphl (s : State) : Out := State.done 5 { s with sp := s.hl }

/-- `IN p8` (0xDB), R246. -/
def execInPort (port : Byte) (s : State) : Out := inputFrom port s

/-- `OUT p8` (0xD3), R247. -/
def execOutPort (port : Byte) (s : State) : Out := outputTo port s

/-- `EI` (0xFB), R250. -/
def execEi (s : State) : Out := State.done 4 { s with inte := true, eiShadow := true }

/-- `DI` (0xF3), R251. -/
def execDi (s : State) : Out := State.done 4 { s with inte := false }

/-- `HLT` (0x76), R252. -/
def execHlt (s : State) : Out := State.done 7 { s with halted := true }

/-- `NOP` (0x00), R253. -/
def execNop (s : State) : Out := State.done 4 s

/-- Illegal opcode 0x08, R256. -/
def execIllegal08 (s : State) : Out := illegalOpcode 0x08#8 s

/-- Illegal opcode 0x10, R256. -/
def execIllegal10 (s : State) : Out := illegalOpcode 0x10#8 s

/-- Illegal opcode 0x18, R256. -/
def execIllegal18 (s : State) : Out := illegalOpcode 0x18#8 s

/-- Illegal opcode 0x20, R256. -/
def execIllegal20 (s : State) : Out := illegalOpcode 0x20#8 s

/-- Illegal opcode 0x28, R256. -/
def execIllegal28 (s : State) : Out := illegalOpcode 0x28#8 s

/-- Illegal opcode 0x30, R256. -/
def execIllegal30 (s : State) : Out := illegalOpcode 0x30#8 s

/-- Illegal opcode 0x38, R256. -/
def execIllegal38 (s : State) : Out := illegalOpcode 0x38#8 s

/-- Illegal opcode 0xCB, R256. -/
def execIllegalCB (s : State) : Out := illegalOpcode 0xCB#8 s

/-- Illegal opcode 0xD9, R256. -/
def execIllegalD9 (s : State) : Out := illegalOpcode 0xD9#8 s

/-- Illegal opcode 0xDD, R256. -/
def execIllegalDD (s : State) : Out := illegalOpcode 0xDD#8 s

/-- Illegal opcode 0xED, R256. -/
def execIllegalED (s : State) : Out := illegalOpcode 0xED#8 s

/-- Illegal opcode 0xFD, R256. -/
def execIllegalFD (s : State) : Out := illegalOpcode 0xFD#8 s

end Sys2Proof.Machine
end

