-- ==== Sys2Proof/Machine/Driver.lean ====
section
/-! DEFINITION. The core step (60_exceptions.md R400 to R405) and the driving algorithm around it (48_scheduler.md R377). -/

namespace Sys2Proof.Machine

/-- The fetch of a whole instruction: the opcode, then its operand bytes in address order, `PC` moved past each
(60_exceptions.md R404; 30_encoding.md R97). -/
def fetchInstr (s : State) : Instr × State :=
  let op := fetchByte s
  match templateOf op.1 with
  | .fixed i => (i, op.2)
  | .imm8 mk =>
    let b := fetchByte op.2
    (mk b.1, b.2)
  | .imm16 mk =>
    let lo := fetchByte op.2
    let hi := fetchByte lo.2
    (mk (joinBytes hi.1 lo.1), hi.2)

/-- The end of a core step: `ei_shadow` is cleared unless the instruction was EI (60_exceptions.md R404). -/
def clearShadow (i : Instr) (s : State) : State :=
  if i = .ei then s else { s with eiShadow := false }

/-- `FetchExecute()` (60_exceptions.md R404). -/
def fetchExecute (s : State) : Out :=
  let f := fetchInstr s
  match exec f.1 f.2 with
  | .next s' => .next (clearShadow f.1 s')
  | .fault r => .fault r
  | .refused r => .refused r

/-- The idle step of a halted core: 4 cycles, nothing fetched (60_exceptions.md R403). -/
def idleStep (s : State) : State := { s with eiShadow := false, opCycles := 4 }

/-- Whether a latched request is accepted at this boundary (60_exceptions.md R402). -/
def acceptsRequest (s : State) : Bool := s.intReq && s.inte && !s.eiShadow

/-- `ExecOneOp()`: acceptance, or the idle step, or one instruction; the request latch does not survive
(60_exceptions.md R402). -/
def execOneOp (s : State) : Out :=
  let s1 := { s with intReq := false }
  if acceptsRequest s then .next (acceptInterrupt s1)
  else if s.halted then .next (idleStep s1)
  else fetchExecute s1

/-- Delivery at a boundary: the card raises its vector while a FIFO holds a byte (60_exceptions.md R400, R406). -/
def deliverInterrupt (s : State) : State :=
  if s.interruptPending then raiseInterrupt Config.cardVector s else s

/-- The cycles a core step bills: the error count for the sentinel (60_exceptions.md R400). -/
def billedCycles (opCycles : Nat) : Nat :=
  if Config.sentinelBound < opCycles then Config.errCycles else opCycles

/-- The virtual time a core step consumes, clamped (60_exceptions.md R400; 48_scheduler.md R377, R379). -/
def billedNs (opCycles : Nat) : Nat := min (billedCycles opCycles * Config.nsPerCycle) Config.maxStepNs

/-- After the core step: the cycle counter and the clock advance by what it billed (60_exceptions.md R400;
48_scheduler.md R377). -/
def billStep (s : State) : State :=
  { s with
    cyc := s.cyc + billedCycles s.opCycles
    sched := { s.sched with now := s.sched.now + billedNs s.opCycles } }

/-- `DriverIteration()`: the core step of `DeviceStep`, then the clock, then the due timers (48_scheduler.md R377;
60_exceptions.md R400). -/
def driverIteration (s : State) : Out :=
  match execOneOp (deliverInterrupt s) with
  | .next s' => .next (fireDue (billStep s'))
  | .fault r => .fault r
  | .refused r => .refused r

/-- Whether three bytes from `PC` on all lie in ROM or RAM. -/
def fetchable (s : State) : Bool :=
  decide (regionOf s.pc ≠ .unmapped) && decide (regionOf (s.pc + 1#16) ≠ .unmapped) &&
  decide (regionOf (s.pc + 2#16) ≠ .unmapped)

/-- Places a byte of a program from outside the machine: into the ROM image or into RAM. -/
def placeByte (a : Word) (v : Byte) (s : State) : State :=
  match regionOf a with
  | .rom => { s with rom := Memory.write s.rom a.toNat v }
  | .ram => { s with ram := Memory.write s.ram a.toNat v }
  | .unmapped => s

/-- The state whose next step fetches at `PC`: awake, with no request to accept, and with `PC` at 0x0000 where the bytes
at the old `PC` could not be stored. At reset it changes nothing. Log entry 11. -/
def readyToFetch (s : State) : State :=
  let s1 := { s with
    halted := false
    eiShadow := s.eiShadow || (s.inte && (s.intReq || s.interruptPending)) }
  if fetchable s1 then s1 else { s1 with pc := 0x0000#16 }

/-- Places the three bytes of a table word where the next step fetches. -/
def placeTableWord (nbits w : Nat) (s : State) : State :=
  let s1 := readyToFetch s
  let v := w % 2 ^ nbits
  placeByte (s1.pc + 2#16) (BitVec.ofNat 8 (v / 65536))
    (placeByte (s1.pc + 1#16) (BitVec.ofNat 8 (v / 256)) (placeByte s1.pc (BitVec.ofNat 8 v) s1))

end Sys2Proof.Machine
end

