-- ==== Sys2Proof/Machine/Step.lean ====
section
/-! DEFINITION. The step of the machine: one turn of the driver (48_scheduler.md R377). -/

namespace Sys2Proof.Machine

/-- One step: interrupt delivery, then an acceptance, an idle step or an instruction, then the clock and the due timers. -/
def step (s : State) : Host.Outcome State Fault Refusal := driverIteration s

/-- The state with the instruction of a table word stored where `step` fetches its next instruction: at `PC`, in the ROM
image after reset. -/
def State.withFetchWord (s : State) (nbits w : Nat) : State := placeTableWord nbits w s

end Sys2Proof.Machine
end

