-- ==== Sys2Proof/Machine/Environment.lean ====
section
/-! DEFINITION. What the environment does to the block between two core steps: the host operations of 47_bus_interface.md and
the endpoint operations of 46_uart_bank.md, each one atomic transition (00_scope.md R6; 48_scheduler.md R381). The driver never
calls them; log entry 9. Also the host's queries, and the i8080's `reset()`. -/

namespace Sys2Proof.Machine

/-- An operation of the environment. -/
inductive EnvOp where
  | select (addr : Byte)
  | deselect
  | strobeObs (v : Byte)
  | strobeCbs (v : Byte)
  | setCpuBusy (flag : Bool)
  | cardReset (hard : Bool)
  | enqueueRx (k : Chan) (b : Byte)
  | enqueueRxBatch (k : Chan) (bytes : List Byte)
  | serialRxByte (k : Chan) (b : Byte)
  | receiveKeystroke (k : Chan) (keycode : Nat)
  | attachSerial (k : Chan)
  | attachSession (k : Chan)
  | detach (k : Chan)
  deriving DecidableEq, Repr

/-- `select(addr)`: the low three bits are the offset; offset 0 selects nothing (47_bus_interface.md R342). -/
def hostSelect (addr : Byte) (s : State) : State :=
  let off := addr.extractLsb' 0 3
  { s with bus := { s.bus with ioOffset := off, selected := s.bus.selected || off != 0#3 } }

/-- `deselect()` (R343). -/
def hostDeselect (s : State) : State := { s with bus := { s.bus with selected := false } }

/-- Whether a strobe has been latched and not consumed. -/
def BusLatches.strobePending (b : BusLatches) : Bool := b.obsSeen || b.cbsSeen

/-- `strobe_obs(byte)` and `strobe_cbs(byte)`: ignored while not selected, a fault while one is pending (R344 to R346, R353). -/
def hostStrobe (obs : Bool) (v : Byte) (s : State) : State :=
  if s.bus.selected = false then s
  else if s.bus.strobePending then s.raise .doubleStrobe
  else { s with bus := { s.bus with
    obsSeen := obs, cbsSeen := !obs, obscbsOffset := s.bus.ioOffset, obscbsData := v } }

/-- `set_cpu_busy(flag)` (R347). -/
def hostSetCpuBusy (flag : Bool) (s : State) : State := { s with bus := { s.bus with cpb := flag } }

/-- The card's `reset(hard)`: the PRIME latch, hard and warm alike (R350; 70_reset_and_hazards.md R442). -/
def cardReset (_hard : Bool) (s : State) : State := { s with bus := { s.bus with primeSeen := true } }

/-- `get_ib()`: 0x10 at offset 5 (R348). -/
def getIb (s : State) : Byte := if s.bus.ioOffset = 5#3 then 0x10#8 else 0x00#8

/-- `busy` of R349: a strobe pending at offsets 4 to 7, or the offset's `rbi` bit; offset 0 has no bit. -/
def BusLatches.busy (b : BusLatches) : Bool :=
  (b.strobePending && decide (4 ≤ b.ioOffset.toNat)) ||
  (decide (1 ≤ b.ioOffset.toNat) && b.rbi.getLsbD (b.ioOffset.toNat - 1))

/-- `dev_ready` (10_state.md R42; R349). -/
def State.devReady (s : State) : Bool := s.bus.selected && !s.bus.busy

/-- The addresses the card answers: BASE_ADDR + 1 to BASE_ADDR + 7 (R341). -/
def cardAddresses (s : State) : List Byte :=
  [1, 2, 3, 4, 5, 6, 7].map (fun n => s.cfg.baseAddr.toByte + n)

/-- The legal base addresses (R341). -/
def legalBases : List Byte := [0x00, 0x40, 0x80, 0xC0]

/-- The card's human-readable name (R341; 00_scope.md R2). -/
def cardName : String := "2236 MXD"

/-- `receive_keystroke(k, keycode)`: discarded on a channel that has an endpoint (46_uart_bank.md R321). -/
def receiveKeystroke (k : Chan) (keycode : Nat) (s : State) : State :=
  if (s.chan k).endpoint ≠ .null then s else enqueueRx k (BitVec.ofNat 8 keycode) s

/-- The binding of a channel: the endpoint changes and no XOFF has been sent to it (46_uart_bank.md R322). -/
def bindEndpoint (k : Chan) (ep : Endpoint) (s : State) : State :=
  s.setChan k { s.chan k with endpoint := ep, xoffSent := false }

/-- `attach(k, kind)`, offered only below NUM_TERMS (46_uart_bank.md R322). -/
def attachEndpoint (k : Chan) (ep : Endpoint) (s : State) : Out :=
  if k.toNat < s.cfg.numTerms.toNat then .next (bindEndpoint k ep s) else .refused (.attachBeyondNumTerms k)

/-- The transition of an environment operation. -/
def envStep (op : EnvOp) (s : State) : Out :=
  match op with
  | .select addr => .next (hostSelect addr s)
  | .deselect => .next (hostDeselect s)
  | .strobeObs v => .next (hostStrobe true v s)
  | .strobeCbs v => .next (hostStrobe false v s)
  | .setCpuBusy flag => .next (hostSetCpuBusy flag s)
  | .cardReset hard => .next (cardReset hard s)
  | .enqueueRx k b => .next (enqueueRx k b s)
  | .enqueueRxBatch k bytes => .next (enqueueRxBatch k bytes s)
  | .serialRxByte k b => .next (enqueueRx k b s)
  | .receiveKeystroke k keycode => .next (receiveKeystroke k keycode s)
  | .attachSerial k => attachEndpoint k .serial s
  | .attachSession k => attachEndpoint k .session s
  | .detach k => .next (bindEndpoint k .null s)

/-- The i8080's `reset()`: applied once, at power-on; RAM, the card and the fault record are not touched
(70_reset_and_hazards.md R441). -/
def i8080Reset (s : State) : State :=
  { s with
    a := 0, b := 0, c := 0, d := 0, e := 0, h := 0, l := 0
    flags := Flags.reset
    sp := 0, pc := 0
    inte := false, eiShadow := false, halted := false, intReq := false, intVec := 0
    cyc := 0 }

end Sys2Proof.Machine
end

