-- ==== Sys2Proof/Safety.lean ====
section
/-! DEFINITION. The terms claims are written in: a run without fault, the invariant of the reachable states (10_state.md R50), what
an access records and yields, what an instruction leaves unchanged, and the flag laws in the form of 41_arithmetic.md R140. -/

namespace Sys2Proof.Machine

/-! ### Good runs -/

/-- No fault has been recorded: the premise of a claim about a good run (60_exceptions.md R411). -/
def State.faultFree (s : State) : Prop := s.fault = none

/-- The states one transition leads to: a core step, or one operation of the environment (00_scope.md R6). -/
def Transition (s t : State) : Prop := step s = .next t ∨ ∃ op, envStep op s = .next t

/-- The pending timers of channel k. -/
def State.timersOf (s : State) (k : Chan) : List Timer := s.sched.timers.filter (fun x => x.chan = k)

/-- The channel and its timer agree (10_state.md R50 (c)): the transmitter is idle and the channel has no timer, or it is busy
and the channel has exactly one, the one it names. -/
def State.timerCoherent (s : State) (k : Chan) : Prop :=
  ((s.chan k).txReady = true ∧ (s.chan k).txTimer = none ∧ s.timersOf k = []) ∨
  ((s.chan k).txReady = false ∧ ∃ x, (s.chan k).txTimer = some x.handle ∧ s.timersOf k = [x])

/-- The invariant of the states at an instruction boundary: 10_state.md R50 (a), (c), (e), (f), 60_exceptions.md R402 and R414,
46_uart_bank.md R302 and R316, and the canonical form of the memories. -/
structure State.Inv (s : State) : Prop where
  ramCanonical : Memory.wf 0x2000 0x3000 s.ram = true
  romCanonical : Memory.wf 0 0x1000 s.rom = true
  fifoBound : ∀ k, (s.chan k).fifo.length ≤ 2048
  oneTimer : ∀ k, s.timerCoherent k
  oneStrobe : ¬(s.bus.obsSeen = true ∧ s.bus.cbsSeen = true)
  noneDue : ∀ x ∈ s.sched.timers, s.sched.now < x.deadline
  handles : ∀ x ∈ s.sched.timers, x.handle = x.seq ∧ x.seq < s.sched.nextSeq
  requestDropped : s.intReq = false
  clock : s.sched.now = 561 * s.cyc
  unattached : ∀ k : Chan, s.cfg.numTerms.toNat ≤ k.toNat → (s.chan k).endpoint = .null
  xoffNeeded : ∀ k, (s.chan k).xoffSent = true → (s.chan k).endpoint ≠ .null ∧ 512 < (s.chan k).fifo.length

/-! ### What an access records and yields -/

/-- The faults of byte reads at these addresses, in order (20_memory.md R65). -/
def readFaults (addrs : List Word) : List Fault :=
  (addrs.filter (fun a => regionOf a = .unmapped)).map .undefinedAddressRead

/-- The fault of a byte write at an address, if it has one (20_memory.md R65, R66). -/
def writeFault (a : Word) : Option Fault :=
  match regionOf a with
  | .rom => some (.romWrite a)
  | .ram => none
  | .unmapped => some (.undefinedAddressWrite a)

/-- The faults of byte writes at these addresses, in order. -/
def writeFaults (addrs : List Word) : List Fault := addrs.filterMap writeFault

/-- `t` records what byte reads at `reads` and then byte writes at `writes` record: the first fault is kept, and every
undefined read takes one draw. -/
def Recorded (reads writes : List Word) (s t : State) : Prop :=
  t.fault = (s.fault <|> (readFaults reads ++ writeFaults writes).head?) ∧
  t.draws = s.draws + (readFaults reads).length

/-- What a byte read at `a` yields after byte reads at `before`: the byte that stands there, else the next draw. -/
def readValue (before : List Word) (a : Word) (s : State) : Byte :=
  (s.peek a).getD (Config.freeByte (s.draws + (readFaults before).length))

/-- The 16-bit value at `a`: the byte at `a` is read first and is bits 7:0 (20_memory.md R67). -/
def readValue16 (a : Word) (s : State) : Word := joinBytes (readValue [a] (a + 1#16) s) (readValue [] a s)

/-- After a byte write of `v` at `a`, the address holds `v` where it is RAM and what it held elsewhere. -/
def Stored (a : Word) (v : Byte) (s t : State) : Prop := t.peek a = if regionOf a = .ram then some v else s.peek a

/-! ### What an instruction leaves unchanged -/

/-- Every general register but these is unchanged. -/
def RegsSameBut (changed : List Reg8) (s t : State) : Prop := ∀ r, r ∉ changed → t.reg r = s.reg r

/-- Every byte of memory outside these addresses reads as before. -/
def MemSameBut (changed : List Word) (s t : State) : Prop := ∀ a, a ∉ changed → t.peek a = s.peek a

/-- The interrupt and halt bits, the request latch and the cycle counter are unchanged. -/
structure ControlSame (s t : State) : Prop where
  inte : t.inte = s.inte
  eiShadow : t.eiShadow = s.eiShadow
  halted : t.halted = s.halted
  intReq : t.intReq = s.intReq
  intVec : t.intVec = s.intVec
  cyc : t.cyc = s.cyc

/-- The card is unchanged: bus latches, UART bank, scheduler, output trace, configuration. -/
structure CardSame (s t : State) : Prop where
  bus : t.bus = s.bus
  uart : t.uart = s.uart
  sched : t.sched = s.sched
  trace : t.trace = s.trace
  cfg : t.cfg = s.cfg

/-- Outside the general registers, the flags, `SP` and `PC`, an instruction that reads bytes at `reads`, then writes bytes at
`writes`, and takes `cycles`, changes nothing but memory at `writes` and the record of its accesses. -/
structure InstrFrame (reads writes : List Word) (cycles : Nat) (s t : State) : Prop where
  memory : MemSameBut writes s t
  record : Recorded reads writes s t
  control : ControlSame s t
  card : CardSame s t
  cycles : t.opCycles = cycles

/-- `SP`, `PC` and the flags are unchanged. -/
structure StackPcFlagsSame (s t : State) : Prop where
  sp : t.sp = s.sp
  pc : t.pc = s.pc
  flags : t.flags = s.flags

/-- The bytes an instruction may store to (20_memory.md R71): the address of the operand or of the stack slot. An instruction
not named here stores nothing. -/
def storeAddresses (i : Instr) (s : State) : List Word :=
  match i with
  | .movMB | .movMC | .movMD | .movME | .movMH | .movML | .movMA | .mviM _ | .inrM | .dcrM => [s.hl]
  | .staxB => [s.bc]
  | .staxD => [s.de]
  | .sta addr => [addr]
  | .shld addr => [addr, addr + 1#16]
  | .pushB | .pushD | .pushH | .pushPSW | .call _ => [s.sp - 1#16, s.sp - 2#16]
  | .rst0 | .rst1 | .rst2 | .rst3 | .rst4 | .rst5 | .rst6 | .rst7 => [s.sp - 1#16, s.sp - 2#16]
  | .cnz _ => taken .nz
  | .cz _ => taken .z
  | .cnc _ => taken .nc
  | .cc _ => taken .c
  | .cpo _ => taken .po
  | .cpe _ => taken .pe
  | .cp _ => taken .p
  | .cm _ => taken .m
  | .xthl => [s.sp + 1#16, s.sp]
  | _ => []
where
  /-- The stack slot of a conditional call that is taken. -/
  taken (cond : Cond) : List Word := if condHolds cond s.flags then [s.sp - 1#16, s.sp - 2#16] else []

/-! ### Flag laws -/

/-- S, Z and P of a result byte (10_state.md R26); the exclusive or of the eight bits is 0 when their number is even. -/
def ShowsSzp (v : Byte) (f : Flags) : Prop :=
  f.sign = decide (128 ≤ v.toNat) ∧ f.zero = decide (v.toNat = 0) ∧
  f.parity = !(v.getLsbD 0 ^^ v.getLsbD 1 ^^ v.getLsbD 2 ^^ v.getLsbD 3 ^^
    v.getLsbD 4 ^^ v.getLsbD 5 ^^ v.getLsbD 6 ^^ v.getLsbD 7)

/-- `res` and `f` are what `Add8(a, b, c)` gives (41_arithmetic.md R140): nine bits of sum, AC the carry out of bit 3. -/
def AddsTo (a b : Byte) (c : Bool) (res : Byte) (f : Flags) : Prop :=
  res.toNat + 256 * f.carry.toNat = a.toNat + b.toNat + c.toNat ∧
  f.auxCarry = decide (15 < a.toNat % 16 + b.toNat % 16 + c.toNat) ∧ ShowsSzp res f

/-- `res` and `f` are what `Sub8(a, b, c)` gives, in the equivalent forms R140 states: `CY = 1 iff a < b + c`,
`AC = 1 iff (a & 0x0F) >= (b & 0x0F) + c`. -/
def SubtractsTo (a b : Byte) (c : Bool) (res : Byte) (f : Flags) : Prop :=
  res.toNat + b.toNat + c.toNat = a.toNat + 256 * f.carry.toNat ∧
  f.carry = decide (a.toNat < b.toNat + c.toNat) ∧
  f.auxCarry = decide (b.toNat % 16 + c.toNat ≤ a.toNat % 16) ∧ ShowsSzp res f

/-- The flag byte F, bit by bit (10_state.md R25). -/
def flagBits (f : Flags) : Byte :=
  BitVec.ofBool f.sign ++ BitVec.ofBool f.zero ++ 0#1 ++ BitVec.ofBool f.auxCarry ++ 0#1 ++ BitVec.ofBool f.parity ++ 1#1 ++
    BitVec.ofBool f.carry

/-- What the ALU group does to A and the flags (41_arithmetic.md R140 to R152; 42_logical.md R170 to R181). -/
def AluDoes (op : AluOp) (a v : Byte) (cy : Bool) (res : Byte) (f : Flags) : Prop :=
  match op with
  | .add => AddsTo a v false res f
  | .adc => AddsTo a v cy res f
  | .sub => SubtractsTo a v false res f
  | .sbb => SubtractsTo a v cy res f
  | .ana => res = a &&& v ∧ f.auxCarry = (a.getLsbD 3 || v.getLsbD 3) ∧ f.carry = false ∧ ShowsSzp res f
  | .xra => res = a ^^^ v ∧ f.auxCarry = false ∧ f.carry = false ∧ ShowsSzp res f
  | .ora => res = a ||| v ∧ f.auxCarry = false ∧ f.carry = false ∧ ShowsSzp res f
  | .cmp => res = a ∧ ∃ diff, SubtractsTo a v false diff f

/-- Whether a condition holds (30_encoding.md R96): each names one flag and the value it must have; AC is in none. -/
def condTrue (cond : Cond) (f : Flags) : Bool :=
  let flag := if cond = .nz ∨ cond = .z then f.zero else if cond = .nc ∨ cond = .c then f.carry
    else if cond = .po ∨ cond = .pe then f.parity else f.sign
  flag == cond.code.getLsbD 0

/-! ### Ports and flow control -/

/-- The value of an input port whose read has no side effect, bit by bit, bit 7 first (45_io_ports.md R271, R272, R274, R275,
R277). -/
def polledValue (port : Byte) (s : State) : Option Byte :=
  let bit := BitVec.ofBool
  if port = 0x00#8 then
    some (0#4 ++ bit (!(s.chan .c3).txReady) ++ bit (!(s.chan .c2).txReady) ++ bit (!(s.chan .c1).txReady) ++
      bit (!(s.chan .c0).txReady))
  else if port = 0x01#8 then
    some (s.bus.ioOffset ++ bit s.bus.selected ++ bit (s.bus.selected && !s.bus.cpb) ++ bit s.bus.primeSeen ++
      bit s.bus.cbsSeen ++ bit s.bus.obsSeen)
  else if port = 0x03#8 then some (s.bus.obscbsOffset ++ 0#5)
  else if port = 0x04#8 then
    some (0#4 ++ bit (decide ((s.chan .c3).fifo ≠ [])) ++ bit (decide ((s.chan .c2).fifo ≠ [])) ++
      bit (decide ((s.chan .c1).fifo ≠ [])) ++ bit (decide ((s.chan .c0).fifo ≠ [])))
  else if port = 0x0E#8 then
    let c := s.chan s.uart.sel
    some (bit (decide (s.uart.sel.toNat < s.cfg.numTerms.toNat)) ++ 0#4 ++ bit (c.txReady && c.txTimer.isNone) ++
      bit (decide (c.fifo ≠ [])) ++ bit c.txReady)
  else none

/-- Channel k sends a flow-control event after its FIFO has changed (46_uart_bank.md R316), to an attached endpoint and in strict
alternation: XOFF at 1536 bytes or more, after a push only; XON at 512 bytes or fewer. -/
def FlowControlledBy (push : Bool) (k : Chan) (s t : State) : Prop :=
  let c := s.chan k
  let event (ev : Event) : List Emitted := s.trace ++ [{ time := s.sched.now, event := ev }]
  if push = true ∧ c.endpoint ≠ .null ∧ 1536 ≤ c.fifo.length ∧ c.xoffSent = false then
    t = { s.setChan k { c with xoffSent := true, xoffSentCount := c.xoffSentCount + 1 } with trace := event (.epXoff k) }
  else if c.endpoint ≠ .null ∧ c.fifo.length ≤ 512 ∧ c.xoffSent = true then
    t = { s.setChan k { c with xoffSent := false, xonSentCount := c.xonSentCount + 1 } with trace := event (.epXon k) }
  else t = s

/-- How many of these events are `ev`. -/
def eventCount (ev : Event) (es : List Emitted) : Nat := (es.filter (fun e => e.event = ev)).length

/-- Whether the event delivers a byte to channel k's endpoint. -/
def Event.sendsTo (k : Chan) : Event → Bool
  | .epSend j _ => decide (j = k)
  | _ => false

/-- Whether an environment operation attaches or detaches channel k. -/
def EnvOp.rebinds (k : Chan) : EnvOp → Bool
  | .attachSerial j | .attachSession j | .detach j => decide (j = k)
  | _ => false

end Sys2Proof.Machine
end

