-- ==== Sys2Proof/Certificates/Slice0/Obligations.lean ====
section
/-! DEFINITION. The statements about the MXD i8080 core. In a statement about `exec`, the state given is the one after the fetch:
`PC` is already past the instruction (40_data_transfer.md R120). -/

open Sys2Proof Sys2Proof.Machine

/-! ### Encoding (30_encoding.md) -/

/-- Decoding the encoding of any instruction, whatever bytes follow, gives the instruction and the bytes that follow. -/
def Obligations.DecodeInvertsEncode : Prop :=
  ∀ (i : Instr) (rest : List Byte), i.wellFormed = true → decode (encode i ++ rest) = .ok (i, rest)

/-- Every byte list that decodes is the encoding of what it decodes to, followed by what is left: each instruction has one
encoding. -/
def Obligations.EncodeInvertsDecode : Prop :=
  ∀ (bytes rest : List Byte) (i : Instr), decode bytes = .ok (i, rest) → bytes = encode i ++ rest

/-- Decoding is total (R103): every opcode byte has an instruction, which is illegal exactly for the twelve bytes of R101;
only a list with too few operand bytes is refused, by name; and the length is the one the fields x, y, z give (R90). Which
twelve is the spec's decision D2. -/
def Obligations.DecodingIsTotal : Prop :=
  decode [] = .error .noBytes ∧
  ∀ (op : Byte) (operands : List Byte),
    (instrLength op ≤ operands.length + 1 →
      ∃ i, decode (op :: operands) = .ok (i, operands.drop (instrLength op - 1)) ∧
        ((∃ x, i = .illegal x) ↔ op ∈ [0x08#8, 0x10#8, 0x18#8, 0x20#8, 0x28#8, 0x30#8, 0x38#8, 0xCB#8, 0xD9#8, 0xDD#8, 0xED#8, 0xFD#8])) ∧
    (operands.length + 1 < instrLength op → decode (op :: operands) = .error (.truncated op)) ∧
    let x := op.extractLsb' 6 2
    let y := op.extractLsb' 3 3
    let z := op.extractLsb' 0 3
    instrLength op =
      if (x = 0 ∧ z = 1 ∧ y.toNat % 2 = 0) ∨ (x = 0 ∧ z = 2 ∧ 4 ≤ y.toNat) ∨ (x = 3 ∧ (z = 2 ∨ z = 4)) ∨ op = 0xC3#8 ∨ op = 0xCD#8
      then 3
      else if (x = 0 ∧ z = 6) ∨ (x = 3 ∧ z = 6) ∨ op = 0xD3#8 ∨ op = 0xDB#8 then 2 else 1

/-- A few words written out from the bit fields of R93 and R97 decode to their instructions. That 0x08 is illegal is the
spec's decision D2. -/
def Obligations.WrittenWordsDecode : Prop :=
  decode [0b01111000#8] = .ok (.movAB, []) ∧
  decode [0b10011101#8] = .ok (.sbbL, []) ∧
  decode [0b00111110#8, 0x41#8] = .ok (.mviA 0x41#8, []) ∧
  decode [0b00100001#8, 0x34#8, 0x12#8] = .ok (.lxiH 0x1234#16, []) ∧
  decode [0b11001010#8, 0x34#8, 0x12#8, 0x99#8] = .ok (.jz 0x1234#16, [0x99#8]) ∧
  decode [0b11110101#8] = .ok (.pushPSW, []) ∧
  decode [0b11011011#8, 0x06#8] = .ok (.inPort 0x06#8, []) ∧
  decode [0b01110110#8] = .ok (.hlt, []) ∧
  decode [0b00001000#8] = .ok (.illegal08, []) ∧
  decode [0b11001101#8, 0x20#8] = .error (.truncated 0xCD#8)

/-! ### The step of the machine (48_scheduler.md R377, 60_exceptions.md R400 to R409) -/

/-- A step runs the instruction whose bytes stand at `PC`, when no interrupt is acceptable and the core is not halted: the
request latch is dropped, `PC` moves past the bytes, the instruction has its effect, `ei_shadow` is cleared unless it was EI,
the cycles are billed and the due timers fire. That a request not accepted is dropped, and the EI shadow, are the spec's
decisions D4 and D6. -/
def Obligations.StepRunsTheInstructionAtPc : Prop :=
  ∀ (i : Instr) (s : State), i.wellFormed = true →
    s.halted = false → ((s.interruptPending || s.intReq) && s.inte && !s.eiShadow) = false →
    (∀ j, j < (encode i).length → s.peek (s.pc + BitVec.ofNat 16 j) = (encode i)[j]?) →
    ∃ t, exec i { s with
        intReq := false
        intVec := if s.interruptPending then 0xFF#8 else s.intVec
        pc := s.pc + BitVec.ofNat 16 (encode i).length } = .next t ∧
      step s = .next (fireDue (billStep (if i = .ei then t else { t with eiShadow := false })))

/-- No step stops: every instruction, every acceptance and every idle step answers a next state, in every state. This is the
model's choice between the two that R411 allows at a fault (log entry 1). -/
def Obligations.StepNeverStops : Prop :=
  (∀ s, ∃ t, step s = .next t) ∧ ∀ (i : Instr) (s : State), ∃ t, exec i s = .next t

/-- The idle step (R403, the spec's decision D3): a halted core that accepts no interrupt fetches nothing, changes no register and no
memory, clears `ei_shadow` and bills 4 cycles, 2244 ns; then the due timers fire as after every step. -/
def Obligations.HaltedStepIdles : Prop :=
  ∀ s : State, s.halted = true → ((s.interruptPending || s.intReq) && s.inte && !s.eiShadow) = false →
    ∃ u, step s = .next (fireDue { u with cyc := s.cyc + 4, sched := { s.sched with now := s.sched.now + 2244 } }) ∧
      RegsSameBut [] s u ∧ StackPcFlagsSame s u ∧ u.halted = true ∧ u.eiShadow = false ∧ u.intReq = false ∧ u.inte = s.inte ∧
      MemSameBut [] s u ∧ Recorded [] [] s u ∧ CardSame s u

/-- Interrupt entry (R405, R408): with a byte in a FIFO, interrupts enabled and no shadow, the step takes the interrupt in
place of an instruction. `PC` goes to the stack, high byte first, `SP` moves by 2, `inte` and `halted` become 0, control goes
to 0x0038; no other register, no flag, no other byte and nothing of the card changes; 11 cycles, 6171 ns. That entry is a
step of its own and costs 11 cycles is the spec's decision D5. That a byte in a FIFO is the condition at every boundary is
the spec's decision D4. -/
def Obligations.InterruptEntry : Prop :=
  ∀ s : State, s.interruptPending = true → s.inte = true → s.eiShadow = false →
    ∃ u, step s = .next (fireDue { u with cyc := s.cyc + 11, sched := { s.sched with now := s.sched.now + 6171 } }) ∧
      u.pc = 0x0038#16 ∧ u.sp = s.sp - 2#16 ∧
      Stored (s.sp - 1#16) (hiByte s.pc) s u ∧ Stored (s.sp - 2#16) (loByte s.pc) s u ∧
      RegsSameBut [] s u ∧ u.flags = s.flags ∧
      InstrFrame [] [s.sp - 1#16, s.sp - 2#16] 11
        { s with inte := false, halted := false, eiShadow := false, intReq := false, intVec := 0xFF#8 } u

/-- Acceptance of any latched vector (R401, R402, R405): a vector of the form `0b11 nnn 111` pushes `PC` and goes to 8 * nnn;
any other is the fault UnsupportedVector and leaves `PC`, `SP` and memory alone; either way interrupts are off, the core is
awake, the request is dropped and 11 cycles are returned. The 11 cycles and the other vectors are the spec's decisions D5 and
D41. That the request does not survive the boundary is the spec's decision D4. -/
def Obligations.VectorAcceptance : Prop :=
  ∀ s : State, s.intReq = true → s.inte = true → s.eiShadow = false →
    ∃ u, execOneOp s = .next u ∧ RegsSameBut [] s u ∧ u.flags = s.flags ∧
      if s.intVec &&& 0xC7#8 = 0xC7#8 then
        u.pc = BitVec.ofNat 16 (8 * (s.intVec.extractLsb' 3 3).toNat) ∧ u.sp = s.sp - 2#16 ∧
        Stored (s.sp - 1#16) (hiByte s.pc) s u ∧ Stored (s.sp - 2#16) (loByte s.pc) s u ∧
        InstrFrame [] [s.sp - 1#16, s.sp - 2#16] 11
          { s with inte := false, halted := false, eiShadow := false, intReq := false } u
      else
        u.pc = s.pc ∧ u.sp = s.sp ∧
        InstrFrame [] [] 11
          { s with
            inte := false, halted := false, eiShadow := false, intReq := false
            fault := some (s.fault.getD (.unsupportedVector s.intVec)) } u

/-- Return from an interrupt handler (R409): where the stack slot is RAM, `RET` at the end of a handler that left the stack
as it was brings back the interrupted `PC` and `SP`; `inte` stays 0 until an EI. That the entry is a step of its own is the
spec's decision D5. -/
def Obligations.ReturnResumesTheInterruptedProgram : Prop :=
  ∀ s : State, s.interruptPending = true → s.inte = true → s.eiShadow = false →
    regionOf (s.sp - 1#16) = .ram → regionOf (s.sp - 2#16) = .ram →
    ∃ t r, step s = .next t ∧ exec .ret t = .next r ∧
      r.pc = s.pc ∧ r.sp = s.sp ∧ r.inte = false ∧ r.flags = s.flags ∧ RegsSameBut [] s r

/-- The clock (R400, R377, 70_reset_and_hazards.md R455): every step bills between 4 and 18 cycles, the illegal opcode's
sentinel included, and virtual time advances by 561 ns for each; the safety clamp never binds. The 561 ns per cycle and the
clamp are the spec's decisions D1 and D36. The counts of the idle step and of an acceptance are the spec's decisions D3 and D5. -/
def Obligations.StepAdvancesTheClock : Prop :=
  ∀ s t : State, step s = .next t →
    ∃ n, 4 ≤ n ∧ n ≤ 18 ∧ t.cyc = s.cyc + n ∧ t.sched.now = s.sched.now + 561 * n

/-- No transition, of the core or of the environment, changes the configuration or a byte of ROM, nor lets an address of no region
hold a byte (10_state.md R35, R52; 20_memory.md R62). -/
def Obligations.RomAndConfigurationNeverChange : Prop :=
  ∀ s t : State, Transition s t →
    t.cfg = s.cfg ∧ t.rom = s.rom ∧ (∀ a : Word, a.toNat < 0x1000 → t.peek a = s.peek a) ∧
    ∀ a : Word, (0x1000 ≤ a.toNat ∧ a.toNat < 0x2000) ∨ 0x3000 ≤ a.toNat → t.peek a = none

/-- The fault record is sticky (10_state.md R33; the spec's decision D45): once a fault is recorded no transition and no reset of the
i8080 changes it. -/
def Obligations.FirstFaultIsKept : Prop :=
  ∀ (s t : State) (f : Fault), s.fault = some f →
    (Transition s t → t.fault = some f) ∧ (i8080Reset s).fault = some f

/-- The i8080's `reset()` (70_reset_and_hazards.md R441): `PC` 0, interrupts disabled, registers cleared; memory, the card and the fault
record stay. And power-on (R440, 10_state.md R51): the state that reset leaves, no fault, an empty trace, the time 0, no
timer, the card not selected, `cpb` and PRIME set, the transmitters idle, the FIFOs empty. That the flags, `SP`, the rest of
the core's state and the other latches have these values is the spec's decisions D7 and D14 (log entry 14). -/
def Obligations.ResetLeavesTheStatedValues : Prop :=
  (∀ s : State,
    let t := i8080Reset s
    t.pc = 0x0000#16 ∧ t.inte = false ∧ (∀ r : Reg8, t.reg r = 0x00#8) ∧ t.sp = 0x0000#16 ∧ flagBits t.flags = 0x02#8 ∧
    t.halted = false ∧ t.eiShadow = false ∧ t.intReq = false ∧ t.intVec = 0x00#8 ∧ t.cyc = 0 ∧
    t.fault = s.fault ∧ MemSameBut [] s t ∧ CardSame s t) ∧
  i8080Reset State.reset = State.reset ∧ State.reset.fault = none ∧ State.reset.trace = [] ∧
  State.reset.sched = { now := 0, timers := [], nextSeq := 0 } ∧
  State.reset.bus.selected = false ∧ State.reset.bus.cpb = true ∧ State.reset.bus.primeSeen = true ∧
  State.reset.bus.rbi = 0xFF#8 ∧ State.reset.uart.sel = .c0 ∧
  ∀ k : Chan,
    (State.reset.chan k).txReady = true ∧ (State.reset.chan k).fifo = [] ∧ (State.reset.chan k).endpoint = .null

/-- The invariant holds at power-on. Power-on values are the spec's decisions D7 and D14 (log entry 14); the canonical form
of the memories and the order of handles in the invariant are the model's (log entries 3 and 8). -/
def Obligations.InvariantHoldsAtReset : Prop := State.reset.Inv

/-- Every step, from every state with the invariant, leads to a state with the invariant. The canonical form of the memories
and the order of handles are the model's (log entries 3 and 8). -/
def Obligations.StepKeepsTheInvariant : Prop := ∀ s t : State, s.Inv → step s = .next t → t.Inv

/-- Every operation of the environment keeps the invariant. The canonical form of the memories and the order of handles in it
are the model's (log entries 3 and 8). -/
def Obligations.EnvironmentKeepsTheInvariant : Prop :=
  ∀ (op : EnvOp) (s t : State), s.Inv → envStep op s = .next t → t.Inv

/-! ### Scheduler (48_scheduler.md) and output trace -/

/-- The timer that fires next has the least (deadline, seq) of all (R376); while one is due, `FireDue` removes it, runs its callback
and goes on (R378); it does not return before no deadline is reached; a timer that is not due is not touched, and the clock
does not move. -/
def Obligations.TimersFireInOrder : Prop :=
  (∀ (ts : List Timer) (x : Timer), earliest ts = some x →
    x ∈ ts ∧ ∀ y ∈ ts, x.deadline < y.deadline ∨ (x.deadline = y.deadline ∧ x.seq ≤ y.seq)) ∧
  (∀ (s : State) (x : Timer), earliest s.sched.timers = some x → x.deadline ≤ s.sched.now →
    fireDue s = fireDue (txTimerFire x.chan { s with sched := { s.sched with timers := s.sched.timers.erase x } })) ∧
  ∀ s : State,
    (∀ y ∈ (fireDue s).sched.timers, s.sched.now < y.deadline) ∧
    (∀ y ∈ s.sched.timers, s.sched.now < y.deadline → y ∈ (fireDue s).sched.timers) ∧
    (fireDue s).sched.now = s.sched.now

/-- A timer fires at the first boundary at or after its deadline, never early and late by less than 10 098 ns (R377, R383
(b)). The firing at a boundary is the spec's decision D33. -/
def Obligations.TimerFiresWithinOneStep : Prop :=
  ∀ (s t : State) (x : Timer), s.Inv → step s = .next t → x ∈ s.sched.timers →
    (x ∈ t.sched.timers ↔ t.sched.now < x.deadline) ∧ t.sched.now < x.deadline + 10098

/-- The output trace only grows, and every new event is stamped with a time of the transition that emits it (10_state.md R48; the time
stamp is the model's, log entry 12). -/
def Obligations.TraceIsNeverRewritten : Prop :=
  ∀ s t : State, Transition s t →
    s.sched.now ≤ t.sched.now ∧
    ∃ new, t.trace = s.trace ++ new ∧ ∀ e ∈ new, s.sched.now ≤ e.time ∧ e.time ≤ t.sched.now

/-- XOFF and XON alternate (10_state.md R50 (d)): in every transition but an attach or detach of channel k, the `ep_xoff(k)`
events less the `ep_xon(k)` events are the change of `xoff_sent[k]`, and the two counters count them; an attach or detach
emits nothing and clears the bit. The clearing is the spec's decision D31. That nothing is sent without an endpoint, and when
the thresholds are checked, are the spec's decisions D28 and D29. -/
def Obligations.XoffAndXonAlternate : Prop :=
  ∀ (s t : State) (k : Chan),
    ((step s = .next t ∨ ∃ op, op.rebinds k = false ∧ envStep op s = .next t) →
      ∃ new, t.trace = s.trace ++ new ∧
        eventCount (.epXoff k) new + (s.chan k).xoffSent.toNat = eventCount (.epXon k) new + (t.chan k).xoffSent.toNat ∧
        (t.chan k).xoffSentCount = (s.chan k).xoffSentCount + eventCount (.epXoff k) new ∧
        (t.chan k).xonSentCount = (s.chan k).xonSentCount + eventCount (.epXon k) new) ∧
    ((∃ op, op.rebinds k = true ∧ envStep op s = .next t) → t.trace = s.trace ∧ (t.chan k).xoffSent = false)

/-- What a step delivers to an endpoint was held (46_uart_bank.md R309, R310): a step sends at most one byte to channel k's endpoint, the
byte of its holding register, out of a busy transmitter, which is idle afterwards; and a transmitter with an endpoint that
becomes idle has sent its byte. -/
def Obligations.DeliveredByteWasHeld : Prop :=
  ∀ (s t : State) (k : Chan), s.Inv → step s = .next t →
    ∃ new, t.trace = s.trace ++ new ∧
      (new.filter (fun e => e.event.sendsTo k)).length =
        (if (s.chan k).txReady = false ∧ (t.chan k).txReady = true ∧ (s.chan k).endpoint ≠ .null then 1 else 0) ∧
      ∀ e ∈ new, e.event.sendsTo k = true → e.event = .epSend k (s.chan k).txByte

/-- The character-time callback (46_uart_bank.md R309): without an endpoint the byte is dropped; with one, a draw answers the
backpressure question, and either the timer is armed again after 50 000 to 200 000 ns with nothing delivered, or the byte is
sent. The transmitter is idle again unless the timer was armed again. The fresh draw of a re-arm is the spec's decision D26
(log entry 5). The time of the callback is the spec's decision D33; the handle is the model's (log entry 8). -/
def Obligations.CharacterTimeCallback : Prop :=
  ∀ (k : Chan) (s : State),
    let c := s.chan k
    let t := txTimerFire k s
    (c.endpoint = .null → t = s.setChan k { c with txTimer := none, txReady := true }) ∧
    (c.endpoint ≠ .null → ∃ d, 50000 ≤ d ∧ d ≤ 200000 ∧
      t = if Config.freeBackpressure s.draws then
          { s.setChan k { c with txTimer := some s.sched.nextSeq } with
            draws := s.draws + 2
            sched := { s.sched with
              nextSeq := s.sched.nextSeq + 1
              timers := s.sched.timers ++
                [{ handle := s.sched.nextSeq, deadline := s.sched.now + d, seq := s.sched.nextSeq, chan := k }] } }
        else
          { s.setChan k { c with txTimer := none, txReady := true } with
            draws := s.draws + 1, trace := s.trace ++ [{ time := s.sched.now, event := .epSend k c.txByte }] })

/-! ### Data transfer (40_data_transfer.md) -/

/-- `MOV r1,r2` (R121). -/
def Obligations.MovCopiesTheSource : Prop :=
  ∀ (dst src : Reg8) (s : State),
    encode (.movRR dst src) = [0b01#2 ++ dst.code ++ src.code] ∧
    ∃ t, exec (.movRR dst src) s = .next t ∧ t.reg dst = s.reg src ∧ RegsSameBut [dst] s t ∧ StackPcFlagsSame s t ∧
      InstrFrame [] [] 5 s t

/-- `MOV r,M`, `LDA`, `LDAX` (R122, R127, R131): the register receives the byte at the address formed from the old registers, or a
draw where the address is in no region. -/
def Obligations.LoadsReadTheByte : Prop :=
  ∀ s : State,
    (∀ dst : Reg8, encode (.movRM dst) = [0b01#2 ++ dst.code ++ 0b110#3] ∧
      ∃ t, exec (.movRM dst) s = .next t ∧ t.reg dst = readValue [] s.hl s ∧ RegsSameBut [dst] s t ∧ StackPcFlagsSame s t ∧
        InstrFrame [s.hl] [] 7 s t) ∧
    (∀ addr : Word, encode (.lda addr) = [0x3A#8, loByte addr, hiByte addr] ∧
      ∃ t, exec (.lda addr) s = .next t ∧ t.a = readValue [] addr s ∧ RegsSameBut [.a] s t ∧ StackPcFlagsSame s t ∧
        InstrFrame [addr] [] 13 s t) ∧
    ∀ p : IndirectPair, encode (.ldax p) = [0b00#2 ++ p.toPair.code ++ 0b1010#4] ∧
      ∃ t, exec (.ldax p) s = .next t ∧ t.a = readValue [] (s.pair p.toPair) s ∧ RegsSameBut [.a] s t ∧ StackPcFlagsSame s t ∧
        InstrFrame [s.pair p.toPair] [] 7 s t

/-- `MOV M,r`, `MVI M`, `STA`, `STAX` (R123, R125, R128, R132): the byte goes to the address where that is RAM; at ROM and in no region
the write is a fault and changes nothing. -/
def Obligations.StoresWriteTheByte : Prop :=
  ∀ s : State,
    (∀ src : Reg8, encode (.movMR src) = [0b01#2 ++ 0b110#3 ++ src.code] ∧
      ∃ t, exec (.movMR src) s = .next t ∧ Stored s.hl (s.reg src) s t ∧ RegsSameBut [] s t ∧ StackPcFlagsSame s t ∧
        InstrFrame [] [s.hl] 7 s t) ∧
    (∀ imm : Byte, encode (.mviM imm) = [0x36#8, imm] ∧
      ∃ t, exec (.mviM imm) s = .next t ∧ Stored s.hl imm s t ∧ RegsSameBut [] s t ∧ StackPcFlagsSame s t ∧
        InstrFrame [] [s.hl] 10 s t) ∧
    (∀ addr : Word, encode (.sta addr) = [0x32#8, loByte addr, hiByte addr] ∧
      ∃ t, exec (.sta addr) s = .next t ∧ Stored addr s.a s t ∧ RegsSameBut [] s t ∧ StackPcFlagsSame s t ∧
        InstrFrame [] [addr] 13 s t) ∧
    ∀ p : IndirectPair, encode (.stax p) = [0b00#2 ++ p.toPair.code ++ 0b0010#4] ∧
      ∃ t, exec (.stax p) s = .next t ∧ Stored (s.pair p.toPair) s.a s t ∧ RegsSameBut [] s t ∧ StackPcFlagsSame s t ∧
        InstrFrame [] [s.pair p.toPair] 7 s t

/-- `MVI r`, `LXI`, `XCHG` (R124, R126, R133). -/
def Obligations.ImmediatesAndExchangeLoadRegisters : Prop :=
  ∀ s : State,
    (∀ (dst : Reg8) (imm : Byte), encode (.mviR dst imm) = [0b00#2 ++ dst.code ++ 0b110#3, imm] ∧
      ∃ t, exec (.mviR dst imm) s = .next t ∧ t.reg dst = imm ∧ RegsSameBut [dst] s t ∧ StackPcFlagsSame s t ∧
        InstrFrame [] [] 7 s t) ∧
    (∀ (p : RegPair) (imm : Word), encode (.lxi p imm) = [0b00#2 ++ p.code ++ 0b0001#4, loByte imm, hiByte imm] ∧
      ∃ t, exec (.lxi p imm) s = .next t ∧ t.pair p = imm ∧ (∀ q, q ≠ p → t.pair q = s.pair q) ∧ t.a = s.a ∧
        t.pc = s.pc ∧ t.flags = s.flags ∧ InstrFrame [] [] 10 s t) ∧
    encode .xchg = [0xEB#8] ∧
    ∃ t, exec .xchg s = .next t ∧ t.hl = s.de ∧ t.de = s.hl ∧ RegsSameBut [.d, .e, .h, .l] s t ∧ StackPcFlagsSame s t ∧
      InstrFrame [] [] 4 s t

/-- `LHLD`, `SHLD` (R129, R130): L with the byte at the address, H with the next, each byte on its own. -/
def Obligations.DirectPairTransfers : Prop :=
  ∀ (addr : Word) (s : State),
    encode (.lhld addr) = [0x2A#8, loByte addr, hiByte addr] ∧
    (∃ t, exec (.lhld addr) s = .next t ∧ t.l = readValue [] addr s ∧ t.h = readValue [addr] (addr + 1#16) s ∧
      RegsSameBut [.h, .l] s t ∧ StackPcFlagsSame s t ∧ InstrFrame [addr, addr + 1#16] [] 16 s t) ∧
    encode (.shld addr) = [0x22#8, loByte addr, hiByte addr] ∧
    ∃ t, exec (.shld addr) s = .next t ∧ Stored addr s.l s t ∧ Stored (addr + 1#16) s.h s t ∧
      RegsSameBut [] s t ∧ StackPcFlagsSame s t ∧ InstrFrame [] [addr, addr + 1#16] 16 s t

/-! ### Arithmetic and logic (41_arithmetic.md, 42_logical.md) -/

/-- `ADD r`, `ADC r`, `SUB r`, `SBB r`, `ANA r`, `XRA r`, `ORA r`, `CMP r`: the 56 register rows of the ALU group. The AC of
ANA is the spec's decision D42. -/
def Obligations.AluWithRegister : Prop :=
  ∀ (op : AluOp) (r : Reg8) (s : State),
    encode (.aluR op r) = [0b10#2 ++ op.code ++ r.code] ∧
    ∃ t, exec (.aluR op r) s = .next t ∧ AluDoes op s.a (s.reg r) s.flags.carry t.a t.flags ∧
      RegsSameBut [.a] s t ∧ t.sp = s.sp ∧ t.pc = s.pc ∧ InstrFrame [] [] 4 s t

/-- `ADI`, `ACI`, `SUI`, `SBI`, `ANI`, `XRI`, `ORI`, `CPI`. The AC of ANI is the spec's decision D42. -/
def Obligations.AluWithImmediate : Prop :=
  ∀ (op : AluOp) (imm : Byte) (s : State),
    encode (.aluI op imm) = [0b11#2 ++ op.code ++ 0b110#3, imm] ∧
    ∃ t, exec (.aluI op imm) s = .next t ∧ AluDoes op s.a imm s.flags.carry t.a t.flags ∧
      RegsSameBut [.a] s t ∧ t.sp = s.sp ∧ t.pc = s.pc ∧ InstrFrame [] [] 7 s t

/-- `ADD M`, `ADC M`, `SUB M`, `SBB M`, `ANA M`, `XRA M`, `ORA M`, `CMP M`: the operand is the byte at HL, or a draw. The AC
of ANA is the spec's decision D42. -/
def Obligations.AluWithMemory : Prop :=
  ∀ (op : AluOp) (s : State),
    encode (.aluM op) = [0b10#2 ++ op.code ++ 0b110#3] ∧
    ∃ t, exec (.aluM op) s = .next t ∧ AluDoes op s.a (readValue [] s.hl s) s.flags.carry t.a t.flags ∧
      RegsSameBut [.a] s t ∧ t.sp = s.sp ∧ t.pc = s.pc ∧ InstrFrame [s.hl] [] 7 s t

/-- `INR r`, `DCR r` (R153, R155): CY is kept; AC is the carry out of bit 3 of the addition of 1, or of 0xFF. -/
def Obligations.IncrementDecrementRegister : Prop :=
  ∀ (r : Reg8) (s : State),
    encode (.inrR r) = [0b00#2 ++ r.code ++ 0b100#3] ∧
    (∃ t, exec (.inrR r) s = .next t ∧ (t.reg r).toNat = ((s.reg r).toNat + 1) % 256 ∧
      t.flags.auxCarry = decide ((s.reg r).toNat % 16 = 15) ∧ ShowsSzp (t.reg r) t.flags ∧ t.flags.carry = s.flags.carry ∧
      RegsSameBut [r] s t ∧ t.sp = s.sp ∧ t.pc = s.pc ∧ InstrFrame [] [] 5 s t) ∧
    encode (.dcrR r) = [0b00#2 ++ r.code ++ 0b101#3] ∧
    ∃ t, exec (.dcrR r) s = .next t ∧ (t.reg r).toNat = ((s.reg r).toNat + 255) % 256 ∧
      t.flags.auxCarry = decide ((s.reg r).toNat % 16 ≠ 0) ∧ ShowsSzp (t.reg r) t.flags ∧ t.flags.carry = s.flags.carry ∧
      RegsSameBut [r] s t ∧ t.sp = s.sp ∧ t.pc = s.pc ∧ InstrFrame [] [] 5 s t

/-- `INR M`, `DCR M` (R154, R156): one read, then one write, at HL; the flags come from the byte read, also where the write faults. -/
def Obligations.IncrementDecrementMemory : Prop :=
  ∀ s : State,
    let old := readValue [] s.hl s
    encode .inrM = [0x34#8] ∧
    (∃ t v, exec .inrM s = .next t ∧ v.toNat = (old.toNat + 1) % 256 ∧ Stored s.hl v s t ∧
      t.flags.auxCarry = decide (old.toNat % 16 = 15) ∧ ShowsSzp v t.flags ∧ t.flags.carry = s.flags.carry ∧
      RegsSameBut [] s t ∧ t.sp = s.sp ∧ t.pc = s.pc ∧ InstrFrame [s.hl] [s.hl] 10 s t) ∧
    encode .dcrM = [0x35#8] ∧
    ∃ t v, exec .dcrM s = .next t ∧ v.toNat = (old.toNat + 255) % 256 ∧ Stored s.hl v s t ∧
      t.flags.auxCarry = decide (old.toNat % 16 ≠ 0) ∧ ShowsSzp v t.flags ∧ t.flags.carry = s.flags.carry ∧
      RegsSameBut [] s t ∧ t.sp = s.sp ∧ t.pc = s.pc ∧ InstrFrame [s.hl] [s.hl] 10 s t

/-- `INX`, `DCX`, `DAD` (R157, R158, R159): 16-bit arithmetic mod 65536; INX and DCX change no flag, DAD changes CY only. -/
def Obligations.PairArithmetic : Prop :=
  ∀ (p : RegPair) (s : State),
    encode (.inx p) = [0b00#2 ++ p.code ++ 0b0011#4] ∧
    (∃ t, exec (.inx p) s = .next t ∧ (t.pair p).toNat = ((s.pair p).toNat + 1) % 65536 ∧
      (∀ q, q ≠ p → t.pair q = s.pair q) ∧ t.a = s.a ∧ t.flags = s.flags ∧ t.pc = s.pc ∧ InstrFrame [] [] 5 s t) ∧
    encode (.dcx p) = [0b00#2 ++ p.code ++ 0b1011#4] ∧
    (∃ t, exec (.dcx p) s = .next t ∧ (t.pair p).toNat = ((s.pair p).toNat + 65535) % 65536 ∧
      (∀ q, q ≠ p → t.pair q = s.pair q) ∧ t.a = s.a ∧ t.flags = s.flags ∧ t.pc = s.pc ∧ InstrFrame [] [] 5 s t) ∧
    encode (.dad p) = [0b00#2 ++ p.code ++ 0b1001#4] ∧
    ∃ t, exec (.dad p) s = .next t ∧ t.hl.toNat + 65536 * t.flags.carry.toNat = s.hl.toNat + (s.pair p).toNat ∧
      t.flags = { s.flags with carry := t.flags.carry } ∧ RegsSameBut [.h, .l] s t ∧ t.sp = s.sp ∧ t.pc = s.pc ∧
      InstrFrame [] [] 10 s t

/-- `DAA` (R160), by its two corrections. -/
def Obligations.DaaCorrects : Prop :=
  ∀ s : State,
    let lo := s.a.toNat % 16
    let hi := s.a.toNat / 16
    let low := s.flags.auxCarry = true ∨ 9 < lo
    let high := s.flags.carry = true ∨ 9 < hi ∨ (9 ≤ hi ∧ 9 < lo)
    encode .daa = [0x27#8] ∧
    ∃ (t : State) (corr : Nat), exec .daa s = .next t ∧
      (low ∧ high → corr = 0x66) ∧ (low ∧ ¬high → corr = 0x06) ∧ (¬low ∧ high → corr = 0x60) ∧ (¬low ∧ ¬high → corr = 0x00) ∧
      t.a.toNat = (s.a.toNat + corr) % 256 ∧
      t.flags.auxCarry = decide (15 < lo + corr % 16) ∧ (t.flags.carry = true ↔ high) ∧ ShowsSzp t.a t.flags ∧
      RegsSameBut [.a] s t ∧ t.sp = s.sp ∧ t.pc = s.pc ∧ InstrFrame [] [] 4 s t

/-- What DAA is for: `ACI` and then `DAA` add two-digit decimal numbers, with the decimal carry in CY (derived from R140, R146 and
R160). -/
def Obligations.DaaGivesTheDecimalSum : Prop :=
  ∀ (v : Byte) (s : State),
    s.a.toNat % 16 ≤ 9 → s.a.toNat / 16 ≤ 9 → v.toNat % 16 ≤ 9 → v.toNat / 16 ≤ 9 →
    ∃ t r, exec (.aci v) s = .next t ∧ exec .daa t = .next r ∧
      r.a.toNat % 16 ≤ 9 ∧ r.a.toNat / 16 ≤ 9 ∧
      (10 * (r.a.toNat / 16) + r.a.toNat % 16) + 100 * r.flags.carry.toNat =
        (10 * (s.a.toNat / 16) + s.a.toNat % 16) + (10 * (v.toNat / 16) + v.toNat % 16) + s.flags.carry.toNat

/-- `RLC`, `RRC`, `RAL`, `RAR`, `CMA`, `CMC`, `STC` (R182 to R188): bit by bit; only CY of the flags changes, and not by CMA. -/
def Obligations.RotatesAndComplements : Prop :=
  ∀ s : State,
    let only (cy : Bool) (t : State) : Prop :=
      t.flags = { s.flags with carry := cy } ∧ RegsSameBut [.a] s t ∧ t.sp = s.sp ∧ t.pc = s.pc ∧ InstrFrame [] [] 4 s t
    encode .rlc = [0x07#8] ∧
    (∃ t, exec .rlc s = .next t ∧ only (s.a.getLsbD 7) t ∧ t.a.getLsbD 0 = s.a.getLsbD 7 ∧
      ∀ n, n < 7 → t.a.getLsbD (n + 1) = s.a.getLsbD n) ∧
    encode .rrc = [0x0F#8] ∧
    (∃ t, exec .rrc s = .next t ∧ only (s.a.getLsbD 0) t ∧ t.a.getLsbD 7 = s.a.getLsbD 0 ∧
      ∀ n, n < 7 → t.a.getLsbD n = s.a.getLsbD (n + 1)) ∧
    encode .ral = [0x17#8] ∧
    (∃ t, exec .ral s = .next t ∧ only (s.a.getLsbD 7) t ∧ t.a.getLsbD 0 = s.flags.carry ∧
      ∀ n, n < 7 → t.a.getLsbD (n + 1) = s.a.getLsbD n) ∧
    encode .rar = [0x1F#8] ∧
    (∃ t, exec .rar s = .next t ∧ only (s.a.getLsbD 0) t ∧ t.a.getLsbD 7 = s.flags.carry ∧
      ∀ n, n < 7 → t.a.getLsbD n = s.a.getLsbD (n + 1)) ∧
    encode .cma = [0x2F#8] ∧
    (∃ t, exec .cma s = .next t ∧ only s.flags.carry t ∧ ∀ n, n < 8 → t.a.getLsbD n = !s.a.getLsbD n) ∧
    encode .cmc = [0x3F#8] ∧
    (∃ t, exec .cmc s = .next t ∧ only (!s.flags.carry) t ∧ t.a = s.a) ∧
    encode .stc = [0x37#8] ∧
    ∃ t, exec .stc s = .next t ∧ only true t ∧ t.a = s.a

/-! ### Branches (43_branch.md) -/

/-- `JMP`, the eight conditional jumps and `PCHL` (R201 to R209, R229): absolute targets; the condition reads Z, CY, P or S as
30_encoding.md R96 says; 10 cycles taken or not. -/
def Obligations.JumpsGoToTheAddress : Prop :=
  ∀ s : State,
    (∀ addr : Word, encode (.jmp addr) = [0xC3#8, loByte addr, hiByte addr] ∧
      ∃ t, exec (.jmp addr) s = .next t ∧ t.pc = addr ∧
        RegsSameBut [] s t ∧ t.flags = s.flags ∧ t.sp = s.sp ∧ InstrFrame [] [] 10 s t) ∧
    (∀ (cond : Cond) (addr : Word),
      encode (.jumpCond cond addr) = [0b11#2 ++ cond.code ++ 0b010#3, loByte addr, hiByte addr] ∧
      ∃ t, exec (.jumpCond cond addr) s = .next t ∧ t.pc = (if condTrue cond s.flags then addr else s.pc) ∧
        RegsSameBut [] s t ∧ t.flags = s.flags ∧ t.sp = s.sp ∧ InstrFrame [] [] 10 s t) ∧
    encode .pchl = [0xE9#8] ∧
    ∃ t, exec .pchl s = .next t ∧ t.pc = s.hl ∧
      RegsSameBut [] s t ∧ t.flags = s.flags ∧ t.sp = s.sp ∧ InstrFrame [] [] 5 s t

/-- `CALL`, the eight conditional calls and `RST` (R210 to R218, R228): the address of the next instruction goes on the stack, high byte
first; `SP` and `PC` change also where a stack write faults. A call not taken does nothing, in 11 cycles.
R228's RST supplied as an interrupt vector is `VectorAcceptance`. -/
def Obligations.CallsPushTheReturnAddress : Prop :=
  ∀ s : State,
    let called (target : Word) (cycles : Nat) (t : State) : Prop :=
      t.pc = target ∧ t.sp = s.sp - 2#16 ∧ Stored (s.sp - 1#16) (hiByte s.pc) s t ∧ Stored (s.sp - 2#16) (loByte s.pc) s t ∧
      RegsSameBut [] s t ∧ t.flags = s.flags ∧ InstrFrame [] [s.sp - 1#16, s.sp - 2#16] cycles s t
    (∀ addr : Word, encode (.call addr) = [0xCD#8, loByte addr, hiByte addr] ∧
      ∃ t, exec (.call addr) s = .next t ∧ called addr 17 t) ∧
    (∀ (cond : Cond) (addr : Word),
      encode (.callCond cond addr) = [0b11#2 ++ cond.code ++ 0b100#3, loByte addr, hiByte addr] ∧
      ∃ t, exec (.callCond cond addr) s = .next t ∧
        if condTrue cond s.flags then called addr 17 t
        else RegsSameBut [] s t ∧ StackPcFlagsSame s t ∧ InstrFrame [] [] 11 s t) ∧
    ∀ n : BitVec 3, encode (.rst n) = [0b11#2 ++ n ++ 0b111#3] ∧
      ∃ t, exec (.rst n) s = .next t ∧ called (BitVec.ofNat 16 (8 * n.toNat)) 11 t

/-- `RET` and the eight conditional returns (R219 to R227): `PC` from the stack, low byte first; `inte` is not touched. A return not
taken does nothing, in 5 cycles. -/
def Obligations.ReturnsPopTheReturnAddress : Prop :=
  ∀ s : State,
    let returned (cycles : Nat) (t : State) : Prop :=
      t.pc = readValue16 s.sp s ∧ t.sp = s.sp + 2#16 ∧ RegsSameBut [] s t ∧ t.flags = s.flags ∧
      InstrFrame [s.sp, s.sp + 1#16] [] cycles s t
    encode .ret = [0xC9#8] ∧
    (∃ t, exec .ret s = .next t ∧ returned 10 t) ∧
    ∀ cond : Cond, encode (.retCond cond) = [0b11#2 ++ cond.code ++ 0b000#3] ∧
      ∃ t, exec (.retCond cond) s = .next t ∧
        if condTrue cond s.flags then returned 11 t
        else RegsSameBut [] s t ∧ StackPcFlagsSame s t ∧ InstrFrame [] [] 5 s t

/-! ### Stack, input, output and control (44_stack_io_control.md, 45_io_ports.md) -/

/-- `PUSH B`, `PUSH D`, `PUSH H`, `PUSH PSW` (R240, R241): the high register at `SP-1`, the low one, or the flag byte, at `SP-2`. -/
def Obligations.PushStoresThePair : Prop :=
  ∀ (p : StackPair) (s : State),
    let bytes : Byte × Byte :=
      match p with
      | .bc => (s.b, s.c)
      | .de => (s.d, s.e)
      | .hl => (s.h, s.l)
      | .psw => (s.a, flagBits s.flags)
    encode (.push p) = [0b11#2 ++ p.code ++ 0b0101#4] ∧
    ∃ t, exec (.push p) s = .next t ∧ t.sp = s.sp - 2#16 ∧
      Stored (s.sp - 1#16) bytes.1 s t ∧ Stored (s.sp - 2#16) bytes.2 s t ∧
      RegsSameBut [] s t ∧ t.flags = s.flags ∧ t.pc = s.pc ∧ InstrFrame [] [s.sp - 1#16, s.sp - 2#16] 11 s t

/-- `POP B`, `POP D`, `POP H`, `POP PSW` (R242, R243): the low register from `SP`, the high one from `SP+1`; `POP PSW` takes S, Z, AC, P
and CY from bits 7, 6, 4, 2 and 0 and ignores the others, which F forces as ever. -/
def Obligations.PopLoadsThePair : Prop :=
  ∀ (p : StackPair) (s : State),
    let low := readValue [] s.sp s
    let high := readValue [s.sp] (s.sp + 1#16) s
    encode (.pop p) = [0b11#2 ++ p.code ++ 0b0001#4] ∧
    ∃ t, exec (.pop p) s = .next t ∧ t.sp = s.sp + 2#16 ∧ t.pc = s.pc ∧ InstrFrame [s.sp, s.sp + 1#16] [] 10 s t ∧
      match p with
      | .bc => t.b = high ∧ t.c = low ∧ RegsSameBut [.b, .c] s t ∧ t.flags = s.flags
      | .de => t.d = high ∧ t.e = low ∧ RegsSameBut [.d, .e] s t ∧ t.flags = s.flags
      | .hl => t.h = high ∧ t.l = low ∧ RegsSameBut [.h, .l] s t ∧ t.flags = s.flags
      | .psw => t.a = high ∧ RegsSameBut [.a] s t ∧
          t.flags.sign = low.getLsbD 7 ∧ t.flags.zero = low.getLsbD 6 ∧ t.flags.auxCarry = low.getLsbD 4 ∧
          t.flags.parity = low.getLsbD 2 ∧ t.flags.carry = low.getLsbD 0 ∧ flagBits t.flags = (low &&& 0xD5#8) ||| 0x02#8

/-- `PUSH` and then `POP` of the same pair, in RAM, bring back every register and flag and `SP`. The cycle field is the
model's own (log entry 6). -/
def Obligations.StackRoundTrip : Prop :=
  ∀ (p : StackPair) (s : State), regionOf (s.sp - 1#16) = .ram → regionOf (s.sp - 2#16) = .ram →
    ∃ t r, exec (.push p) s = .next t ∧ exec (.pop p) t = .next r ∧ r = { s with ram := t.ram, opCycles := 10 }

/-- `XTHL`, `SPHL` (R244, R245): XTHL reads both bytes, then writes H at `SP+1`, then L at `SP`; `SP` stays. -/
def Obligations.StackTopExchange : Prop :=
  ∀ s : State,
    encode .xthl = [0xE3#8] ∧
    (∃ t, exec .xthl s = .next t ∧ t.l = readValue [] s.sp s ∧ t.h = readValue [s.sp] (s.sp + 1#16) s ∧
      Stored (s.sp + 1#16) s.h s t ∧ Stored s.sp s.l s t ∧ RegsSameBut [.h, .l] s t ∧ StackPcFlagsSame s t ∧
      InstrFrame [s.sp, s.sp + 1#16] [s.sp + 1#16, s.sp] 18 s t) ∧
    encode .sphl = [0xF9#8] ∧
    ∃ t, exec .sphl s = .next t ∧ t.sp = s.hl ∧ t.pc = s.pc ∧ t.flags = s.flags ∧ RegsSameBut [] s t ∧ InstrFrame [] [] 5 s t

/-- `IN` from a polled port, 0x00, 0x01, 0x03, 0x04 or 0x0E (45_io_ports.md R271, R272, R274, R275, R277): every bit, and no
side effect. The zero bits are the spec's decision D20; bit 2 of 0x0E is as its bit table has it (log entry 13). -/
def Obligations.InReadsThePolledPorts : Prop :=
  (∀ (port v : Byte) (s : State), polledValue port s = some v →
    encode (.inPort port) = [0xDB#8, port] ∧
    ∃ t, exec (.inPort port) s = .next t ∧ t.a = v ∧ RegsSameBut [.a] s t ∧ StackPcFlagsSame s t ∧ InstrFrame [] [] 10 s t) ∧
  ∀ (port : Byte) (s : State), polledValue port s ≠ none ↔ port ∈ [0x00#8, 0x01#8, 0x03#8, 0x04#8, 0x0E#8]

/-- `IN 0x02`, `IN 0x06` and an undefined input port (45_io_ports.md R273, R276, R290; 46_uart_bank.md R317): the
complemented bus byte, and both strobe bits cleared; the oldest byte of the selected FIFO, removed, with the XON rule, or
0x00 and no change; a fault and a draw. The undefined ports are the spec's decision D9. The XON rule rests on the spec's decisions
D28 and D29; a draw is log entry 4. -/
def Obligations.InReadsTheDataPorts : Prop :=
  ∀ s : State,
    let reads (port v : Byte) (after : State) : Prop :=
      ∃ t, exec (.inPort port) s = .next t ∧ t.a = v ∧ RegsSameBut [.a] s t ∧ StackPcFlagsSame s t ∧ InstrFrame [] [] 10 after t
    reads 0x02#8 (~~~s.bus.obscbsData) { s with bus := { s.bus with obsSeen := false, cbsSeen := false } } ∧
    ((s.chan s.uart.sel).fifo = [] → reads 0x06#8 0x00#8 s) ∧
    (∀ (b : Byte) (rest : List Byte), (s.chan s.uart.sel).fifo = b :: rest →
      ∃ after, FlowControlledBy false s.uart.sel (s.setChan s.uart.sel { s.chan s.uart.sel with fifo := rest }) after ∧
        reads 0x06#8 b after) ∧
    ∀ port : Byte, port ∉ [0x00#8, 0x01#8, 0x02#8, 0x03#8, 0x04#8, 0x06#8, 0x0E#8] →
      reads port (Config.freeByte s.draws)
        { s with fault := some (s.fault.getD (.undefinedPortRead port)), draws := s.draws + 1 }

/-- `OUT` to the bus ports and to undefined ports (45_io_ports.md R280 to R284, R287, R288, R290), with the value of A: PRIME
cleared; `ibs` with the complement of A, bit 8 clear or set; the warm reset, which sets PRIME; the halt of the 2200; RBI; the
UART command, which does nothing; a fault and nothing else. PRIME at OUT 0x02 and the undefined ports are the spec's
decisions D24 and D9. That the value of `ibs` is not altered at offset 5 is the spec's decision D21. -/
def Obligations.OutDrivesTheBusPorts : Prop :=
  ∀ s : State,
    let writes (port : Byte) (after : State) : Prop :=
      ∃ t, exec (.outPort port) s = .next t ∧ RegsSameBut [] s t ∧ StackPcFlagsSame s t ∧ InstrFrame [] [] 10 after t
    let event (ev : Event) : List Emitted := s.trace ++ [{ time := s.sched.now, event := ev }]
    (∀ port, encode (.outPort port) = [0xD3#8, port]) ∧
    writes 0x00#8 { s with bus := { s.bus with primeSeen := false } } ∧
    writes 0x01#8 { s with trace := event (.ibs (0#1 ++ ~~~s.a)) } ∧
    writes 0x11#8 { s with trace := event (.ibs (1#1 ++ ~~~s.a)) } ∧
    writes 0x02#8 { s with trace := event .sysWarmReset, bus := { s.bus with primeSeen := true } } ∧
    writes 0x03#8 { s with trace := event .cpuHalt } ∧
    writes 0x07#8 { s with bus := { s.bus with rbi := s.a } } ∧
    writes 0x0E#8 s ∧
    ∀ port : Byte, port ∉ [0x00#8, 0x01#8, 0x02#8, 0x03#8, 0x05#8, 0x06#8, 0x07#8, 0x0E#8, 0x11#8] →
      writes port { s with fault := some (s.fault.getD (.undefinedPortWrite port)) }

/-- `OUT 0x05` and `OUT 0x06` (45_io_ports.md R285, R286; 46_uart_bank.md R308): a one-hot byte selects its channel, any
other is a fault; a byte to an idle transmitter fills the holding register and starts a timer of 572 917 ns from the time
before the step, a byte to a busy one is a fault. The two faults are the spec's decisions D22 and D23. The character time and
the time it starts from are the spec's decisions D25 and D33; the handle is the model's (log entry 8). -/
def Obligations.OutDrivesTheUart : Prop :=
  ∀ s : State,
    let writes (port : Byte) (after : State) : Prop :=
      ∃ t, exec (.outPort port) s = .next t ∧ RegsSameBut [] s t ∧ StackPcFlagsSame s t ∧ InstrFrame [] [] 10 after t
    let k := s.uart.sel
    (∀ j : Chan, s.a.toNat = 2 ^ j.toNat → writes 0x05#8 { s with uart := { s.uart with sel := j } }) ∧
    ((∀ j : Chan, s.a.toNat ≠ 2 ^ j.toNat) → writes 0x05#8 { s with fault := some (s.fault.getD (.badUartSelect s.a)) }) ∧
    ((s.chan k).txReady = true →
      writes 0x06#8 { s.setChan k { s.chan k with txReady := false, txByte := s.a, txTimer := some s.sched.nextSeq } with
        sched := { s.sched with
          nextSeq := s.sched.nextSeq + 1
          timers := s.sched.timers ++
            [{ handle := s.sched.nextSeq, deadline := s.sched.now + 572917, seq := s.sched.nextSeq, chan := k }] } }) ∧
    ((s.chan k).txReady = false → writes 0x06#8 { s with fault := some (s.fault.getD (.txOverrun k)) })

/-- `EI`, `DI`, `HLT`, `NOP` (R250 to R253). The shadow of EI is the spec's decision D6. -/
def Obligations.MachineControl : Prop :=
  ∀ s : State,
    let controls (i : Instr) (op : Byte) (cycles : Nat) (after : State) : Prop :=
      encode i = [op] ∧
      ∃ t, exec i s = .next t ∧ RegsSameBut [] s t ∧ StackPcFlagsSame s t ∧ InstrFrame [] [] cycles after t
    controls .ei 0xFB#8 4 { s with inte := true, eiShadow := true } ∧
    controls .di 0xF3#8 4 { s with inte := false } ∧
    controls .hlt 0x76#8 7 { s with halted := true } ∧
    controls .nop 0x00#8 4 s

/-- The twelve illegal opcodes (R256): the fault names the byte and its address, nothing else changes, and the sentinel,
whichever value above 30 it is, is billed as 4 cycles. Which bytes, and the advance of `PC`, are the spec's decision D2; the
sentinel is log entry 6. -/
def Obligations.IllegalOpcodesAreRecorded : Prop :=
  ∀ (x : IllegalByte) (s : State),
    encode (.illegal x) = [x.toByte] ∧
    ∃ t, exec (.illegal x) s = .next t ∧ 30 < t.opCycles ∧ billedCycles t.opCycles = 4 ∧
      RegsSameBut [] s t ∧ StackPcFlagsSame s t ∧
      InstrFrame [] [] t.opCycles { s with fault := some (s.fault.getD (.illegalOpcode x.toByte (s.pc - 1#16))) } t

/-! ### Promises over all instructions -/

/-- Which instruction writes which flag (10_state.md R27): if an instruction changes S, Z or P, or AC, or CY, it is in that column. -/
def Obligations.FlagsChangeOnlyAsListed : Prop :=
  ∀ (i : Instr) (s t : State), exec i s = .next t →
    let alu := (∃ op r, i = .aluR op r) ∨ (∃ op, i = .aluM op) ∨ (∃ op v, i = .aluI op v)
    let count := (∃ r, i = .inrR r) ∨ (∃ r, i = .dcrR r) ∨ i = .inrM ∨ i = .dcrM
    let carryOnly := (∃ p, i = .dad p) ∨ i ∈ [.rlc, .rrc, .ral, .rar, .stc, .cmc]
    ((t.flags.sign, t.flags.zero, t.flags.parity) ≠ (s.flags.sign, s.flags.zero, s.flags.parity) →
      alu ∨ count ∨ i = .daa ∨ i = .popPSW) ∧
    (t.flags.auxCarry ≠ s.flags.auxCarry → alu ∨ count ∨ i = .daa ∨ i = .popPSW) ∧
    (t.flags.carry ≠ s.flags.carry → alu ∨ carryOnly ∨ i = .daa ∨ i = .popPSW)

/-- The control state (10_state.md R23, R28, R29, R30, R31, R32): only EI and DI write `inte`, only EI sets `ei_shadow`, only
HLT sets `halted`, no instruction touches the request latch or the cycle counter, and `SP` is written only by the
instructions R23 lists. `ei_shadow` is the spec's decision D6. -/
def Obligations.ControlChangesOnlyAsListed : Prop :=
  ∀ (i : Instr) (s t : State), exec i s = .next t →
    (t.inte ≠ s.inte → (i = .ei ∧ t.inte = true) ∨ (i = .di ∧ t.inte = false)) ∧
    (t.eiShadow ≠ s.eiShadow → i = .ei ∧ t.eiShadow = true) ∧
    (t.halted ≠ s.halted → i = .hlt ∧ t.halted = true) ∧
    t.intReq = s.intReq ∧ t.intVec = s.intVec ∧ t.cyc = s.cyc ∧
    (t.sp ≠ s.sp →
      (∃ v, i = .lxiSP v) ∨ i ∈ [.sphl, .inxSP, .dcxSP] ∨ (∃ p, i = .push p ∨ i = .pop p) ∨ (∃ addr, i = .call addr) ∨
      (∃ cond addr, i = .callCond cond addr) ∨ i = .ret ∨ (∃ cond, i = .retCond cond) ∨ ∃ n, i = .rst n)

/-- Memory (20_memory.md R71): an instruction changes at most the bytes R71 gives it, and only in RAM. -/
def Obligations.OnlyListedBytesAreStored : Prop :=
  ∀ (i : Instr) (s t : State) (a : Word), exec i s = .next t → t.peek a ≠ s.peek a →
    a ∈ storeAddresses i s ∧ 0x2000 ≤ a.toNat ∧ a.toNat < 0x3000

/-- The card (20_memory.md R60; 60_exceptions.md R414, R415): only IN and OUT reach it; every other instruction leaves latches, UART
bank, scheduler and trace alone, and no instruction, IN and OUT included, moves the clock. -/
def Obligations.OnlyPortsReachTheCard : Prop :=
  ∀ (i : Instr) (s t : State), exec i s = .next t →
    t.sched.now = s.sched.now ∧
    ((∀ port, i ≠ .inPort port ∧ i ≠ .outPort port) → CardSame s t)

/-! ### UART bank (46_uart_bank.md) -/

/-- A byte arrives (R313, R314, R316, R320, R321): XON and XOFF bytes change nothing; any other goes to the back of the FIFO,
a full FIFO losing its oldest byte, which is counted; then flow control. `serial_rx_byte` does the same; `receive_keystroke`
does it with the low byte of the key code, on a channel without endpoint only. The silent filter, the order of the policy and
the session's discarding are the spec's decisions D27, D29 and D32. That no XOFF is sent without an endpoint is the spec's decision
D28; the width of a key code is log entry 13. -/
def Obligations.ReceivedByteIsQueued : Prop :=
  ∀ (k : Chan) (b : Byte) (s : State),
    let c := s.chan k
    let queued : Channel :=
      if c.fifo.length = 2048 then { c with fifo := c.fifo.tail ++ [b], rxOverrunDrops := c.rxOverrunDrops + 1 }
      else { c with fifo := c.fifo ++ [b] }
    ∃ t, envStep (.enqueueRx k b) s = .next t ∧ envStep (.serialRxByte k b) s = .next t ∧
      (∀ code : Nat, code % 256 = b.toNat →
        envStep (.receiveKeystroke k code) s = .next (if c.endpoint = .null then t else s)) ∧
      if b = 0x11#8 ∨ b = 0x13#8 then t = s else FlowControlledBy true k (s.setChan k queued) t

/-- A batch arrives (R319): after the filter, what fits is appended; else the FIFO fills, at most 1024 of the oldest bytes
give way, the newest surplus is lost, and every lost byte is counted; the FIFO never exceeds 2048; then flow control, once.
The algorithm is the spec's decision D30. The flow-control policy rests on the spec's decisions D28 and D29. -/
def Obligations.BatchIsQueued : Prop :=
  ∀ (k : Chan) (bytes : List Byte) (s : State), (s.chan k).fifo.length ≤ 2048 →
    let c := s.chan k
    let data := bytes.filter (fun b => b ≠ 0x11#8 ∧ b ≠ 0x13#8)
    ∃ (q : List Byte) (drops : Nat) (t : State),
      envStep (.enqueueRxBatch k bytes) s = .next t ∧
      FlowControlledBy true k (s.setChan k { c with fifo := q, rxOverrunDrops := drops }) t ∧
      q.length = min 2048 (c.fifo.length + data.length) ∧ q.length + drops = c.fifo.length + c.rxOverrunDrops + data.length ∧
      (c.fifo.length + data.length ≤ 2048 → q = c.fifo ++ data) ∧
      (2048 < c.fifo.length + data.length →
        let free := 2048 - c.fifo.length
        let d := min (data.length - free) 1024
        q = (c.fifo ++ data.take free).drop d ++ (data.drop free).take d)

/-- Overflow keeps the newest data (R315): after any number of `enqueue_rx` the FIFO holds the most recent unfiltered bytes, up to 2048,
in arrival order, and every other one is counted. -/
def Obligations.FifoKeepsTheNewest : Prop :=
  ∀ (k : Chan) (bytes : List Byte) (s : State), (s.chan k).fifo.length ≤ 2048 →
    let all := (s.chan k).fifo ++ bytes.filter (fun b => b ≠ 0x11#8 ∧ b ≠ 0x13#8)
    let t := bytes.foldl (fun u b => enqueueRx k b u) s
    (t.chan k).fifo = all.drop (all.length - 2048) ∧
    (t.chan k).rxOverrunDrops = (s.chan k).rxOverrunDrops + (all.length - 2048)

/-! ### The environment's other operations (46_uart_bank.md R322; 47_bus_interface.md) -/

/-- `select`, `deselect`, `set_cpu_busy`, the card's `reset`, `get_ib` (R342, R343, R347, R348, R350) and `attach`, `detach`
(46_uart_bank.md R322), which is offered below NUM_TERMS only. Offset 0, the unexamined address bits, what deselect, reset
and attach leave alone: the spec's decisions D17, D46, D47, D15, D31. That `get_ib` is 0x00 away from offset 5 is the spec's decision
D21; that `attach` at or above NUM_TERMS is refused is the spec's decision D40 and 93_implementation_defined.md U12, and that it is
refused by a name of its own is the model's reading (log entry 13, DEDUCED). -/
def Obligations.HostOperations : Prop :=
  ∀ s : State,
    (∀ addr : Byte, ∃ t, envStep (.select addr) s = .next t ∧ t.bus.ioOffset.toNat = addr.toNat % 8 ∧
      t.bus.selected = (s.bus.selected || decide (addr.toNat % 8 ≠ 0)) ∧
      t = { s with bus := { s.bus with ioOffset := t.bus.ioOffset, selected := t.bus.selected } }) ∧
    envStep .deselect s = .next { s with bus := { s.bus with selected := false } } ∧
    (∀ busy, envStep (.setCpuBusy busy) s = .next { s with bus := { s.bus with cpb := busy } }) ∧
    (∀ hard, envStep (.cardReset hard) s = .next { s with bus := { s.bus with primeSeen := true } }) ∧
    (getIb s = if s.bus.ioOffset.toNat = 5 then 0x10#8 else 0x00#8) ∧
    ∀ k : Chan,
      let bound (ep : Endpoint) : State := s.setChan k { s.chan k with endpoint := ep, xoffSent := false }
      envStep (.detach k) s = .next (bound .null) ∧
      (k.toNat < s.cfg.numTerms.toNat →
        envStep (.attachSerial k) s = .next (bound .serial) ∧ envStep (.attachSession k) s = .next (bound .session)) ∧
      (s.cfg.numTerms.toNat ≤ k.toNat →
        envStep (.attachSerial k) s = .refused (.attachBeyondNumTerms k) ∧
        envStep (.attachSession k) s = .refused (.attachBeyondNumTerms k))

/-- The strobes (R344, R345, R346, R353): ignored while not selected; a fault while one is pending; else exactly one of `obs_seen` and
`cbs_seen`, the offset and the byte are latched, and `IN 0x02` then gives the complement of the byte and clears both (R358 (a)).
The ignored strobe and the fault are the spec's decisions D18 and D19. -/
def Obligations.StrobesLatchOrFault : Prop :=
  ∀ (v : Byte) (s : State),
    (s.bus.selected = false → envStep (.strobeObs v) s = .next s ∧ envStep (.strobeCbs v) s = .next s) ∧
    (s.bus.selected = true → s.bus.obsSeen = true ∨ s.bus.cbsSeen = true →
      envStep (.strobeObs v) s = .next { s with fault := some (s.fault.getD .doubleStrobe) } ∧
      envStep (.strobeCbs v) s = .next { s with fault := some (s.fault.getD .doubleStrobe) }) ∧
    (s.bus.selected = true → s.bus.obsSeen = false → s.bus.cbsSeen = false →
      let latched := { s.bus with obscbsOffset := s.bus.ioOffset, obscbsData := v }
      envStep (.strobeObs v) s = .next { s with bus := { latched with obsSeen := true } } ∧
      envStep (.strobeCbs v) s = .next { s with bus := { latched with cbsSeen := true } }) ∧
    ∀ t : State, s.bus.selected = true → s.bus.obsSeen = false → s.bus.cbsSeen = false →
      envStep (.strobeObs v) s = .next t ∨ envStep (.strobeCbs v) s = .next t →
      ∃ r, exec (.inPort 0x02#8) t = .next r ∧ r.a = ~~~v ∧ r.bus.obsSeen = false ∧ r.bus.cbsSeen = false

/-- Ready and busy (R349), by the truth table: ready only while selected; at offsets 1 to 3 the `rbi` bit alone decides; at
offsets 4 to 7 also a pending strobe makes the card busy; at offset 0 nothing does. Readiness as a function of the state, and
offset 0, are the spec's decisions D16 and D17. -/
def Obligations.DevReadyFollowsTheTable : Prop :=
  ∀ s : State,
    let n := s.bus.ioOffset.toNat
    (s.devReady = true → s.bus.selected = true) ∧
    (s.bus.selected = true → n = 0 → s.devReady = true) ∧
    (s.bus.selected = true → 1 ≤ n → n ≤ 3 → s.devReady = !s.bus.rbi.getLsbD (n - 1)) ∧
    (s.bus.selected = true → 4 ≤ n → s.bus.obsSeen = false → s.bus.cbsSeen = false → s.devReady = !s.bus.rbi.getLsbD (n - 1)) ∧
    (s.bus.selected = true → 4 ≤ n → s.bus.obsSeen = true ∨ s.bus.cbsSeen = true → s.devReady = false)
end

