-- ==== Sys2Proof/Laws/State.lean ====
section
/-! SUPPORT. One lemma per field of the state per primitive update, and what the accessors read after it. -/

namespace Sys2Proof.Machine

/-! ### `State.raise` -/

@[simp] theorem State.raise_a (x : Fault) (s : State) : (s.raise x).a = s.a := rfl
@[simp] theorem State.raise_b (x : Fault) (s : State) : (s.raise x).b = s.b := rfl
@[simp] theorem State.raise_c (x : Fault) (s : State) : (s.raise x).c = s.c := rfl
@[simp] theorem State.raise_d (x : Fault) (s : State) : (s.raise x).d = s.d := rfl
@[simp] theorem State.raise_e (x : Fault) (s : State) : (s.raise x).e = s.e := rfl
@[simp] theorem State.raise_h (x : Fault) (s : State) : (s.raise x).h = s.h := rfl
@[simp] theorem State.raise_l (x : Fault) (s : State) : (s.raise x).l = s.l := rfl
@[simp] theorem State.raise_flags (x : Fault) (s : State) : (s.raise x).flags = s.flags := rfl
@[simp] theorem State.raise_sp (x : Fault) (s : State) : (s.raise x).sp = s.sp := rfl
@[simp] theorem State.raise_pc (x : Fault) (s : State) : (s.raise x).pc = s.pc := rfl
@[simp] theorem State.raise_inte (x : Fault) (s : State) : (s.raise x).inte = s.inte := rfl
@[simp] theorem State.raise_eiShadow (x : Fault) (s : State) : (s.raise x).eiShadow = s.eiShadow := rfl
@[simp] theorem State.raise_halted (x : Fault) (s : State) : (s.raise x).halted = s.halted := rfl
@[simp] theorem State.raise_intReq (x : Fault) (s : State) : (s.raise x).intReq = s.intReq := rfl
@[simp] theorem State.raise_intVec (x : Fault) (s : State) : (s.raise x).intVec = s.intVec := rfl
@[simp] theorem State.raise_cyc (x : Fault) (s : State) : (s.raise x).cyc = s.cyc := rfl
@[simp] theorem State.raise_ram (x : Fault) (s : State) : (s.raise x).ram = s.ram := rfl
@[simp] theorem State.raise_rom (x : Fault) (s : State) : (s.raise x).rom = s.rom := rfl
@[simp] theorem State.raise_bus (x : Fault) (s : State) : (s.raise x).bus = s.bus := rfl
@[simp] theorem State.raise_uart (x : Fault) (s : State) : (s.raise x).uart = s.uart := rfl
@[simp] theorem State.raise_sched (x : Fault) (s : State) : (s.raise x).sched = s.sched := rfl
@[simp] theorem State.raise_trace (x : Fault) (s : State) : (s.raise x).trace = s.trace := rfl
@[simp] theorem State.raise_cfg (x : Fault) (s : State) : (s.raise x).cfg = s.cfg := rfl
@[simp] theorem State.raise_draws (x : Fault) (s : State) : (s.raise x).draws = s.draws := rfl
@[simp] theorem State.raise_opCycles (x : Fault) (s : State) : (s.raise x).opCycles = s.opCycles := rfl
@[simp] theorem State.raise_fault (x : Fault) (s : State) : (s.raise x).fault = some (s.fault.getD x) := rfl

/-! ### `State.emit` -/

@[simp] theorem State.emit_a (x : Event) (s : State) : (s.emit x).a = s.a := rfl
@[simp] theorem State.emit_b (x : Event) (s : State) : (s.emit x).b = s.b := rfl
@[simp] theorem State.emit_c (x : Event) (s : State) : (s.emit x).c = s.c := rfl
@[simp] theorem State.emit_d (x : Event) (s : State) : (s.emit x).d = s.d := rfl
@[simp] theorem State.emit_e (x : Event) (s : State) : (s.emit x).e = s.e := rfl
@[simp] theorem State.emit_h (x : Event) (s : State) : (s.emit x).h = s.h := rfl
@[simp] theorem State.emit_l (x : Event) (s : State) : (s.emit x).l = s.l := rfl
@[simp] theorem State.emit_flags (x : Event) (s : State) : (s.emit x).flags = s.flags := rfl
@[simp] theorem State.emit_sp (x : Event) (s : State) : (s.emit x).sp = s.sp := rfl
@[simp] theorem State.emit_pc (x : Event) (s : State) : (s.emit x).pc = s.pc := rfl
@[simp] theorem State.emit_inte (x : Event) (s : State) : (s.emit x).inte = s.inte := rfl
@[simp] theorem State.emit_eiShadow (x : Event) (s : State) : (s.emit x).eiShadow = s.eiShadow := rfl
@[simp] theorem State.emit_halted (x : Event) (s : State) : (s.emit x).halted = s.halted := rfl
@[simp] theorem State.emit_intReq (x : Event) (s : State) : (s.emit x).intReq = s.intReq := rfl
@[simp] theorem State.emit_intVec (x : Event) (s : State) : (s.emit x).intVec = s.intVec := rfl
@[simp] theorem State.emit_cyc (x : Event) (s : State) : (s.emit x).cyc = s.cyc := rfl
@[simp] theorem State.emit_fault (x : Event) (s : State) : (s.emit x).fault = s.fault := rfl
@[simp] theorem State.emit_ram (x : Event) (s : State) : (s.emit x).ram = s.ram := rfl
@[simp] theorem State.emit_rom (x : Event) (s : State) : (s.emit x).rom = s.rom := rfl
@[simp] theorem State.emit_bus (x : Event) (s : State) : (s.emit x).bus = s.bus := rfl
@[simp] theorem State.emit_uart (x : Event) (s : State) : (s.emit x).uart = s.uart := rfl
@[simp] theorem State.emit_sched (x : Event) (s : State) : (s.emit x).sched = s.sched := rfl
@[simp] theorem State.emit_cfg (x : Event) (s : State) : (s.emit x).cfg = s.cfg := rfl
@[simp] theorem State.emit_draws (x : Event) (s : State) : (s.emit x).draws = s.draws := rfl
@[simp] theorem State.emit_opCycles (x : Event) (s : State) : (s.emit x).opCycles = s.opCycles := rfl
@[simp] theorem State.emit_trace (x : Event) (s : State) :
    (s.emit x).trace = s.trace ++ [{ time := s.sched.now, event := x }] := rfl

/-! ### `State.setReg` -/

@[simp] theorem State.setReg_flags (r : Reg8) (v : Byte) (s : State) : (s.setReg r v).flags = s.flags := by cases r <;> rfl
@[simp] theorem State.setReg_sp (r : Reg8) (v : Byte) (s : State) : (s.setReg r v).sp = s.sp := by cases r <;> rfl
@[simp] theorem State.setReg_pc (r : Reg8) (v : Byte) (s : State) : (s.setReg r v).pc = s.pc := by cases r <;> rfl
@[simp] theorem State.setReg_inte (r : Reg8) (v : Byte) (s : State) : (s.setReg r v).inte = s.inte := by cases r <;> rfl
@[simp] theorem State.setReg_eiShadow (r : Reg8) (v : Byte) (s : State) : (s.setReg r v).eiShadow = s.eiShadow := by cases r <;> rfl
@[simp] theorem State.setReg_halted (r : Reg8) (v : Byte) (s : State) : (s.setReg r v).halted = s.halted := by cases r <;> rfl
@[simp] theorem State.setReg_intReq (r : Reg8) (v : Byte) (s : State) : (s.setReg r v).intReq = s.intReq := by cases r <;> rfl
@[simp] theorem State.setReg_intVec (r : Reg8) (v : Byte) (s : State) : (s.setReg r v).intVec = s.intVec := by cases r <;> rfl
@[simp] theorem State.setReg_cyc (r : Reg8) (v : Byte) (s : State) : (s.setReg r v).cyc = s.cyc := by cases r <;> rfl
@[simp] theorem State.setReg_fault (r : Reg8) (v : Byte) (s : State) : (s.setReg r v).fault = s.fault := by cases r <;> rfl
@[simp] theorem State.setReg_ram (r : Reg8) (v : Byte) (s : State) : (s.setReg r v).ram = s.ram := by cases r <;> rfl
@[simp] theorem State.setReg_rom (r : Reg8) (v : Byte) (s : State) : (s.setReg r v).rom = s.rom := by cases r <;> rfl
@[simp] theorem State.setReg_bus (r : Reg8) (v : Byte) (s : State) : (s.setReg r v).bus = s.bus := by cases r <;> rfl
@[simp] theorem State.setReg_uart (r : Reg8) (v : Byte) (s : State) : (s.setReg r v).uart = s.uart := by cases r <;> rfl
@[simp] theorem State.setReg_sched (r : Reg8) (v : Byte) (s : State) : (s.setReg r v).sched = s.sched := by cases r <;> rfl
@[simp] theorem State.setReg_trace (r : Reg8) (v : Byte) (s : State) : (s.setReg r v).trace = s.trace := by cases r <;> rfl
@[simp] theorem State.setReg_cfg (r : Reg8) (v : Byte) (s : State) : (s.setReg r v).cfg = s.cfg := by cases r <;> rfl
@[simp] theorem State.setReg_draws (r : Reg8) (v : Byte) (s : State) : (s.setReg r v).draws = s.draws := by cases r <;> rfl
@[simp] theorem State.setReg_opCycles (r : Reg8) (v : Byte) (s : State) : (s.setReg r v).opCycles = s.opCycles := by cases r <;> rfl
@[simp] theorem State.reg_setReg_self (r : Reg8) (v : Byte) (s : State) : (s.setReg r v).reg r = v := by cases r <;> rfl
theorem State.reg_setReg_ne {r q : Reg8} (h : q ≠ r) (v : Byte) (s : State) : (s.setReg r v).reg q = s.reg q := by
  cases r <;> cases q <;> first | rfl | exact absurd rfl h

/-! ### `State.setPair` -/

@[simp] theorem State.setPair_flags (p : RegPair) (v : Word) (s : State) : (s.setPair p v).flags = s.flags := by cases p <;> rfl
@[simp] theorem State.setPair_pc (p : RegPair) (v : Word) (s : State) : (s.setPair p v).pc = s.pc := by cases p <;> rfl
@[simp] theorem State.setPair_inte (p : RegPair) (v : Word) (s : State) : (s.setPair p v).inte = s.inte := by cases p <;> rfl
@[simp] theorem State.setPair_eiShadow (p : RegPair) (v : Word) (s : State) : (s.setPair p v).eiShadow = s.eiShadow := by cases p <;> rfl
@[simp] theorem State.setPair_halted (p : RegPair) (v : Word) (s : State) : (s.setPair p v).halted = s.halted := by cases p <;> rfl
@[simp] theorem State.setPair_intReq (p : RegPair) (v : Word) (s : State) : (s.setPair p v).intReq = s.intReq := by cases p <;> rfl
@[simp] theorem State.setPair_intVec (p : RegPair) (v : Word) (s : State) : (s.setPair p v).intVec = s.intVec := by cases p <;> rfl
@[simp] theorem State.setPair_cyc (p : RegPair) (v : Word) (s : State) : (s.setPair p v).cyc = s.cyc := by cases p <;> rfl
@[simp] theorem State.setPair_fault (p : RegPair) (v : Word) (s : State) : (s.setPair p v).fault = s.fault := by cases p <;> rfl
@[simp] theorem State.setPair_ram (p : RegPair) (v : Word) (s : State) : (s.setPair p v).ram = s.ram := by cases p <;> rfl
@[simp] theorem State.setPair_rom (p : RegPair) (v : Word) (s : State) : (s.setPair p v).rom = s.rom := by cases p <;> rfl
@[simp] theorem State.setPair_bus (p : RegPair) (v : Word) (s : State) : (s.setPair p v).bus = s.bus := by cases p <;> rfl
@[simp] theorem State.setPair_uart (p : RegPair) (v : Word) (s : State) : (s.setPair p v).uart = s.uart := by cases p <;> rfl
@[simp] theorem State.setPair_sched (p : RegPair) (v : Word) (s : State) : (s.setPair p v).sched = s.sched := by cases p <;> rfl
@[simp] theorem State.setPair_trace (p : RegPair) (v : Word) (s : State) : (s.setPair p v).trace = s.trace := by cases p <;> rfl
@[simp] theorem State.setPair_cfg (p : RegPair) (v : Word) (s : State) : (s.setPair p v).cfg = s.cfg := by cases p <;> rfl
@[simp] theorem State.setPair_draws (p : RegPair) (v : Word) (s : State) : (s.setPair p v).draws = s.draws := by cases p <;> rfl
@[simp] theorem State.setPair_opCycles (p : RegPair) (v : Word) (s : State) : (s.setPair p v).opCycles = s.opCycles := by cases p <;> rfl

/-! ### `State.setStackPair` -/

@[simp] theorem State.setStackPair_sp (p : StackPair) (v : Word) (s : State) : (s.setStackPair p v).sp = s.sp := by cases p <;> rfl
@[simp] theorem State.setStackPair_pc (p : StackPair) (v : Word) (s : State) : (s.setStackPair p v).pc = s.pc := by cases p <;> rfl
@[simp] theorem State.setStackPair_inte (p : StackPair) (v : Word) (s : State) : (s.setStackPair p v).inte = s.inte := by cases p <;> rfl
@[simp] theorem State.setStackPair_eiShadow (p : StackPair) (v : Word) (s : State) : (s.setStackPair p v).eiShadow = s.eiShadow := by cases p <;> rfl
@[simp] theorem State.setStackPair_halted (p : StackPair) (v : Word) (s : State) : (s.setStackPair p v).halted = s.halted := by cases p <;> rfl
@[simp] theorem State.setStackPair_intReq (p : StackPair) (v : Word) (s : State) : (s.setStackPair p v).intReq = s.intReq := by cases p <;> rfl
@[simp] theorem State.setStackPair_intVec (p : StackPair) (v : Word) (s : State) : (s.setStackPair p v).intVec = s.intVec := by cases p <;> rfl
@[simp] theorem State.setStackPair_cyc (p : StackPair) (v : Word) (s : State) : (s.setStackPair p v).cyc = s.cyc := by cases p <;> rfl
@[simp] theorem State.setStackPair_fault (p : StackPair) (v : Word) (s : State) : (s.setStackPair p v).fault = s.fault := by cases p <;> rfl
@[simp] theorem State.setStackPair_ram (p : StackPair) (v : Word) (s : State) : (s.setStackPair p v).ram = s.ram := by cases p <;> rfl
@[simp] theorem State.setStackPair_rom (p : StackPair) (v : Word) (s : State) : (s.setStackPair p v).rom = s.rom := by cases p <;> rfl
@[simp] theorem State.setStackPair_bus (p : StackPair) (v : Word) (s : State) : (s.setStackPair p v).bus = s.bus := by cases p <;> rfl
@[simp] theorem State.setStackPair_uart (p : StackPair) (v : Word) (s : State) : (s.setStackPair p v).uart = s.uart := by cases p <;> rfl
@[simp] theorem State.setStackPair_sched (p : StackPair) (v : Word) (s : State) : (s.setStackPair p v).sched = s.sched := by cases p <;> rfl
@[simp] theorem State.setStackPair_trace (p : StackPair) (v : Word) (s : State) : (s.setStackPair p v).trace = s.trace := by cases p <;> rfl
@[simp] theorem State.setStackPair_cfg (p : StackPair) (v : Word) (s : State) : (s.setStackPair p v).cfg = s.cfg := by cases p <;> rfl
@[simp] theorem State.setStackPair_draws (p : StackPair) (v : Word) (s : State) : (s.setStackPair p v).draws = s.draws := by cases p <;> rfl
@[simp] theorem State.setStackPair_opCycles (p : StackPair) (v : Word) (s : State) : (s.setStackPair p v).opCycles = s.opCycles := by cases p <;> rfl

/-! ### `State.setChan` -/

@[simp] theorem State.setChan_a (k : Chan) (x : Channel) (s : State) : (s.setChan k x).a = s.a := rfl
@[simp] theorem State.setChan_b (k : Chan) (x : Channel) (s : State) : (s.setChan k x).b = s.b := rfl
@[simp] theorem State.setChan_c (k : Chan) (x : Channel) (s : State) : (s.setChan k x).c = s.c := rfl
@[simp] theorem State.setChan_d (k : Chan) (x : Channel) (s : State) : (s.setChan k x).d = s.d := rfl
@[simp] theorem State.setChan_e (k : Chan) (x : Channel) (s : State) : (s.setChan k x).e = s.e := rfl
@[simp] theorem State.setChan_h (k : Chan) (x : Channel) (s : State) : (s.setChan k x).h = s.h := rfl
@[simp] theorem State.setChan_l (k : Chan) (x : Channel) (s : State) : (s.setChan k x).l = s.l := rfl
@[simp] theorem State.setChan_flags (k : Chan) (x : Channel) (s : State) : (s.setChan k x).flags = s.flags := rfl
@[simp] theorem State.setChan_sp (k : Chan) (x : Channel) (s : State) : (s.setChan k x).sp = s.sp := rfl
@[simp] theorem State.setChan_pc (k : Chan) (x : Channel) (s : State) : (s.setChan k x).pc = s.pc := rfl
@[simp] theorem State.setChan_inte (k : Chan) (x : Channel) (s : State) : (s.setChan k x).inte = s.inte := rfl
@[simp] theorem State.setChan_eiShadow (k : Chan) (x : Channel) (s : State) : (s.setChan k x).eiShadow = s.eiShadow := rfl
@[simp] theorem State.setChan_halted (k : Chan) (x : Channel) (s : State) : (s.setChan k x).halted = s.halted := rfl
@[simp] theorem State.setChan_intReq (k : Chan) (x : Channel) (s : State) : (s.setChan k x).intReq = s.intReq := rfl
@[simp] theorem State.setChan_intVec (k : Chan) (x : Channel) (s : State) : (s.setChan k x).intVec = s.intVec := rfl
@[simp] theorem State.setChan_cyc (k : Chan) (x : Channel) (s : State) : (s.setChan k x).cyc = s.cyc := rfl
@[simp] theorem State.setChan_fault (k : Chan) (x : Channel) (s : State) : (s.setChan k x).fault = s.fault := rfl
@[simp] theorem State.setChan_ram (k : Chan) (x : Channel) (s : State) : (s.setChan k x).ram = s.ram := rfl
@[simp] theorem State.setChan_rom (k : Chan) (x : Channel) (s : State) : (s.setChan k x).rom = s.rom := rfl
@[simp] theorem State.setChan_bus (k : Chan) (x : Channel) (s : State) : (s.setChan k x).bus = s.bus := rfl
@[simp] theorem State.setChan_sched (k : Chan) (x : Channel) (s : State) : (s.setChan k x).sched = s.sched := rfl
@[simp] theorem State.setChan_trace (k : Chan) (x : Channel) (s : State) : (s.setChan k x).trace = s.trace := rfl
@[simp] theorem State.setChan_cfg (k : Chan) (x : Channel) (s : State) : (s.setChan k x).cfg = s.cfg := rfl
@[simp] theorem State.setChan_draws (k : Chan) (x : Channel) (s : State) : (s.setChan k x).draws = s.draws := rfl
@[simp] theorem State.setChan_opCycles (k : Chan) (x : Channel) (s : State) : (s.setChan k x).opCycles = s.opCycles := rfl
@[simp] theorem State.setChan_sel (k : Chan) (x : Channel) (s : State) : (s.setChan k x).uart.sel = s.uart.sel := by cases k <;> rfl
@[simp] theorem State.chan_setChan_self (k : Chan) (x : Channel) (s : State) : (s.setChan k x).chan k = x := by cases k <;> rfl
theorem State.chan_setChan_ne {k j : Chan} (h : j ≠ k) (x : Channel) (s : State) : (s.setChan k x).chan j = s.chan j := by
  cases k <;> cases j <;> first | rfl | exact absurd rfl h
theorem State.chan_setChan (k j : Chan) (x : Channel) (s : State) :
    (s.setChan k x).chan j = if j = k then x else s.chan j := by
  cases k <;> cases j <;> rfl

/-! ### `alu` and the end of a rule -/

@[simp] theorem alu_b (op : AluOp) (v : Byte) (s : State) : (alu op v s).b = s.b := rfl
@[simp] theorem alu_c (op : AluOp) (v : Byte) (s : State) : (alu op v s).c = s.c := rfl
@[simp] theorem alu_d (op : AluOp) (v : Byte) (s : State) : (alu op v s).d = s.d := rfl
@[simp] theorem alu_e (op : AluOp) (v : Byte) (s : State) : (alu op v s).e = s.e := rfl
@[simp] theorem alu_h (op : AluOp) (v : Byte) (s : State) : (alu op v s).h = s.h := rfl
@[simp] theorem alu_l (op : AluOp) (v : Byte) (s : State) : (alu op v s).l = s.l := rfl
@[simp] theorem alu_sp (op : AluOp) (v : Byte) (s : State) : (alu op v s).sp = s.sp := rfl
@[simp] theorem alu_pc (op : AluOp) (v : Byte) (s : State) : (alu op v s).pc = s.pc := rfl
@[simp] theorem alu_inte (op : AluOp) (v : Byte) (s : State) : (alu op v s).inte = s.inte := rfl
@[simp] theorem alu_eiShadow (op : AluOp) (v : Byte) (s : State) : (alu op v s).eiShadow = s.eiShadow := rfl
@[simp] theorem alu_halted (op : AluOp) (v : Byte) (s : State) : (alu op v s).halted = s.halted := rfl
@[simp] theorem alu_intReq (op : AluOp) (v : Byte) (s : State) : (alu op v s).intReq = s.intReq := rfl
@[simp] theorem alu_intVec (op : AluOp) (v : Byte) (s : State) : (alu op v s).intVec = s.intVec := rfl
@[simp] theorem alu_cyc (op : AluOp) (v : Byte) (s : State) : (alu op v s).cyc = s.cyc := rfl
@[simp] theorem alu_fault (op : AluOp) (v : Byte) (s : State) : (alu op v s).fault = s.fault := rfl
@[simp] theorem alu_ram (op : AluOp) (v : Byte) (s : State) : (alu op v s).ram = s.ram := rfl
@[simp] theorem alu_rom (op : AluOp) (v : Byte) (s : State) : (alu op v s).rom = s.rom := rfl
@[simp] theorem alu_bus (op : AluOp) (v : Byte) (s : State) : (alu op v s).bus = s.bus := rfl
@[simp] theorem alu_uart (op : AluOp) (v : Byte) (s : State) : (alu op v s).uart = s.uart := rfl
@[simp] theorem alu_sched (op : AluOp) (v : Byte) (s : State) : (alu op v s).sched = s.sched := rfl
@[simp] theorem alu_trace (op : AluOp) (v : Byte) (s : State) : (alu op v s).trace = s.trace := rfl
@[simp] theorem alu_cfg (op : AluOp) (v : Byte) (s : State) : (alu op v s).cfg = s.cfg := rfl
@[simp] theorem alu_draws (op : AluOp) (v : Byte) (s : State) : (alu op v s).draws = s.draws := rfl
@[simp] theorem alu_opCycles (op : AluOp) (v : Byte) (s : State) : (alu op v s).opCycles = s.opCycles := rfl
@[simp] theorem alu_a (op : AluOp) (v : Byte) (s : State) : (alu op v s).a = (aluResult op s.a v s.flags).1 := rfl
@[simp] theorem alu_flags (op : AluOp) (v : Byte) (s : State) : (alu op v s).flags = (aluResult op s.a v s.flags).2 := rfl
theorem State.done_eq (n : Nat) (s : State) : s.done n = .next { s with opCycles := n } := rfl

/-! ### Reading through an update that leaves memory, registers or channels alone -/

/-- `peek` reads `rom` and `ram` only. -/
theorem State.peek_congr {s t : State} (hrom : t.rom = s.rom) (hram : t.ram = s.ram) (a : Word) : t.peek a = s.peek a := by
  simp [State.peek, hrom, hram]

/-- `chan` reads `uart` only. -/
theorem State.chan_congr {s t : State} (h : t.uart = s.uart) (k : Chan) : t.chan k = s.chan k := by
  cases k <;> simp [State.chan, h]

@[simp] theorem State.peek_raise (x : Fault) (s : State) (a : Word) : (s.raise x).peek a = s.peek a := rfl
@[simp] theorem State.peek_emit (x : Event) (s : State) (a : Word) : (s.emit x).peek a = s.peek a := rfl
@[simp] theorem State.peek_setReg (r : Reg8) (v : Byte) (s : State) (a : Word) : (s.setReg r v).peek a = s.peek a := by
  cases r <;> rfl
@[simp] theorem State.peek_setPair (p : RegPair) (v : Word) (s : State) (a : Word) : (s.setPair p v).peek a = s.peek a := by
  cases p <;> rfl
@[simp] theorem State.peek_setStackPair (p : StackPair) (v : Word) (s : State) (a : Word) :
    (s.setStackPair p v).peek a = s.peek a := by
  cases p <;> rfl
@[simp] theorem State.peek_setChan (k : Chan) (x : Channel) (s : State) (a : Word) : (s.setChan k x).peek a = s.peek a := rfl
@[simp] theorem State.chan_raise (x : Fault) (s : State) (k : Chan) : (s.raise x).chan k = s.chan k := by cases k <;> rfl
@[simp] theorem State.chan_emit (x : Event) (s : State) (k : Chan) : (s.emit x).chan k = s.chan k := by cases k <;> rfl
@[simp] theorem State.reg_raise (x : Fault) (s : State) (r : Reg8) : (s.raise x).reg r = s.reg r := by cases r <;> rfl

end Sys2Proof.Machine
end

