-- ==== Sys2Proof/Laws/Memory.lean ====
section
/-! SUPPORT. The laws of memory: read after write, the canonical form, the memory map, and what each access can do. -/

namespace Sys2Proof.Machine

/-! ### Lists of cells -/

@[simp] theorem Memory.read_write_self (m : Memory) (a : Nat) (v : Byte) : Memory.read (Memory.write m a v) a = some v := by
  induction m with
  | nil => simp [Memory.write, Memory.read]
  | cons p rest ih =>
    obtain ⟨k, w⟩ := p
    by_cases h1 : a < k
    · simp [Memory.write, Memory.read, h1]
    · by_cases h2 : a = k
      · simp [Memory.write, Memory.read, h2]
      · simp [Memory.write, Memory.read, h1, h2, ih]

theorem Memory.read_write_ne {a b : Nat} (h : b ≠ a) (m : Memory) (v : Byte) :
    Memory.read (Memory.write m a v) b = Memory.read m b := by
  induction m with
  | nil => simp [Memory.write, Memory.read, h]
  | cons p rest ih =>
    obtain ⟨k, w⟩ := p
    by_cases h1 : a < k
    · simp [Memory.write, Memory.read, h1, h]
    · by_cases h2 : a = k
      · subst h2
        simp [Memory.write, Memory.read, h]
      · simp [Memory.write, Memory.read, h1, h2, ih]

/-- A memory in canonical form lists nothing below its lower bound. -/
theorem Memory.read_eq_none_of_lt {lo hi : Nat} {m : Memory} (h : Memory.wf lo hi m = true) {a : Nat} (ha : a < lo) :
    Memory.read m a = none := by
  induction m generalizing lo with
  | nil => rfl
  | cons p rest ih =>
    obtain ⟨k, w⟩ := p
    simp only [Memory.wf, Bool.and_eq_true, decide_eq_true_eq] at h
    rw [Memory.read, if_neg (by omega)]
    exact ih h.2 (by omega)

/-- The lower bound of the canonical form may be lowered. -/
theorem Memory.wf_mono {lo lo' hi : Nat} {m : Memory} (h : Memory.wf lo hi m = true) (hlo : lo' ≤ lo) :
    Memory.wf lo' hi m = true := by
  cases m with
  | nil => rfl
  | cons p rest =>
    obtain ⟨k, w⟩ := p
    simp only [Memory.wf, Bool.and_eq_true, decide_eq_true_eq] at h ⊢
    exact ⟨⟨by omega, h.1.2⟩, h.2⟩

/-- A write in range keeps the canonical form. -/
theorem Memory.wf_write {lo hi : Nat} {m : Memory} (h : Memory.wf lo hi m = true) {a : Nat} (hlo : lo ≤ a) (hhi : a < hi)
    (v : Byte) : Memory.wf lo hi (Memory.write m a v) = true := by
  induction m generalizing lo with
  | nil => simp [Memory.write, Memory.wf, hlo, hhi]
  | cons p rest ih =>
    obtain ⟨k, w⟩ := p
    simp only [Memory.wf, Bool.and_eq_true, decide_eq_true_eq] at h
    by_cases h1 : a < k
    · simp only [Memory.write, h1, if_true, Memory.wf, Bool.and_eq_true, decide_eq_true_eq]
      exact ⟨⟨hlo, hhi⟩, ⟨by omega, h.1.2⟩, h.2⟩
    · by_cases h2 : a = k
      · subst h2
        simpa [Memory.write, Memory.wf] using h
      · simp only [Memory.write, h1, h2, if_false, Memory.wf, Bool.and_eq_true, decide_eq_true_eq]
        exact ⟨h.1, ih h.2 (by omega)⟩

/-- Two memories in canonical form that list the same bytes are equal data. -/
theorem Memory.eq_of_read_eq {lo hi : Nat} {m n : Memory} (hm : Memory.wf lo hi m = true) (hn : Memory.wf lo hi n = true)
    (h : ∀ a, Memory.read m a = Memory.read n a) : m = n := by
  induction m generalizing lo n with
  | nil =>
    cases n with
    | nil => rfl
    | cons q rest => have := h q.1; simp [Memory.read] at this
  | cons p rest ih =>
    obtain ⟨k, v⟩ := p
    cases n with
    | nil => have := h k; simp [Memory.read] at this
    | cons q rest' =>
      obtain ⟨j, w⟩ := q
      simp only [Memory.wf, Bool.and_eq_true, decide_eq_true_eq] at hm hn
      have hkj : k = j := by
        rcases lt_trichotomy k j with hlt | heq | hgt
        · have := h k
          rw [Memory.read, if_pos rfl, Memory.read, if_neg (by omega), Memory.read_eq_none_of_lt hn.2 (by omega)] at this
          cases this
        · exact heq
        · have := h j
          rw [Memory.read, if_neg (by omega), Memory.read_eq_none_of_lt hm.2 (by omega), Memory.read, if_pos rfl] at this
          cases this
      subst hkj
      have hv : v = w := by simpa [Memory.read] using h k
      subst hv
      congr 1
      refine ih hm.2 hn.2 fun a => ?_
      by_cases ha : a = k
      · subst ha
        rw [Memory.read_eq_none_of_lt hm.2 (by omega), Memory.read_eq_none_of_lt hn.2 (by omega)]
      · simpa [Memory.read, ha] using h a

/-! ### The memory map (20_memory.md R62) -/

theorem regionOf_eq_rom {a : Word} : regionOf a = .rom ↔ a.toNat < 0x1000 := by
  unfold regionOf
  split_ifs <;> simp_all

theorem regionOf_eq_ram {a : Word} : regionOf a = .ram ↔ 0x2000 ≤ a.toNat ∧ a.toNat < 0x3000 := by
  unfold regionOf
  split_ifs <;> simp_all
  omega

theorem regionOf_eq_unmapped {a : Word} :
    regionOf a = .unmapped ↔ (0x1000 ≤ a.toNat ∧ a.toNat < 0x2000) ∨ 0x3000 ≤ a.toNat := by
  unfold regionOf
  split_ifs <;> simp_all <;> omega

theorem State.peek_eq_none {s : State} {a : Word} : s.peek a = none ↔ regionOf a = .unmapped := by
  unfold State.peek
  cases regionOf a <;> simp

/-! ### One byte -/

theorem memRead_of_peek {s : State} {a : Word} {v : Byte} (h : s.peek a = some v) : memRead a s = (v, s) := by
  simp [memRead, h]

theorem memRead_unmapped {s : State} {a : Word} (h : regionOf a = .unmapped) :
    memRead a s = (Config.freeByte s.draws, { s.raise (.undefinedAddressRead a) with draws := s.draws + 1 }) := by
  simp [memRead, State.peek_eq_none.2 h, drawByte]

/-- All a byte read can change: the fault record and the draws. -/
theorem memRead_frame (a : Word) (s : State) : ∃ f n, (memRead a s).2 = { s with fault := f, draws := n } := by
  unfold memRead
  split
  · exact ⟨s.fault, s.draws, rfl⟩
  · exact ⟨_, _, rfl⟩

theorem memWrite_ram {a : Word} (h : regionOf a = .ram) (v : Byte) (s : State) :
    memWrite a v s = { s with ram := Memory.write s.ram a.toNat v } := by
  simp [memWrite, h]

theorem memWrite_rom {a : Word} (h : regionOf a = .rom) (v : Byte) (s : State) : memWrite a v s = s.raise (.romWrite a) := by
  simp [memWrite, h]

theorem memWrite_unmapped {a : Word} (h : regionOf a = .unmapped) (v : Byte) (s : State) :
    memWrite a v s = s.raise (.undefinedAddressWrite a) := by
  simp [memWrite, h]

/-- All a byte write can change: the fault record and RAM. -/
theorem memWrite_frame (a : Word) (v : Byte) (s : State) : ∃ f m, memWrite a v s = { s with fault := f, ram := m } := by
  unfold memWrite
  split
  · exact ⟨_, s.ram, rfl⟩
  · exact ⟨s.fault, _, rfl⟩
  · exact ⟨_, s.ram, rfl⟩

theorem peek_memWrite_self {a : Word} (h : regionOf a = .ram) (v : Byte) (s : State) : (memWrite a v s).peek a = some v := by
  simp [memWrite_ram h, State.peek, h]

/-- A byte write leaves every other address alone, whatever region it names. -/
theorem peek_memWrite_ne {a b : Word} (h : b ≠ a) (v : Byte) (s : State) : (memWrite a v s).peek b = s.peek b := by
  unfold memWrite
  split
  · rfl
  · have hn : b.toNat ≠ a.toNat := fun e => h (BitVec.eq_of_toNat_eq e)
    unfold State.peek
    cases regionOf b <;> simp [Memory.read_write_ne hn]
  · rfl

/-- A byte write keeps the canonical form of RAM. -/
theorem memWrite_ram_wf {s : State} (h : Memory.wf 0x2000 0x3000 s.ram = true) (a : Word) (v : Byte) :
    Memory.wf 0x2000 0x3000 (memWrite a v s).ram = true := by
  unfold memWrite
  split
  · exact h
  · rename_i hr
    have := regionOf_eq_ram.1 hr
    exact Memory.wf_write h this.1 this.2 v
  · exact h

/-- Placing a program byte keeps the canonical form of both memories. -/
theorem placeable_write_wf {m : Memory} {lo hi : Nat} (h : Memory.wf lo hi m = true) {a : Word} (hlo : lo ≤ a.toNat)
    (hhi : a.toNat < hi) (v : Byte) : Memory.wf lo hi (Memory.write m a.toNat v) = true :=
  Memory.wf_write h hlo hhi v

/-! ### Two bytes and the stack -/

/-- All a 16-bit read can change: the fault record and the draws. -/
theorem memRead16_frame (a : Word) (s : State) : ∃ f n, (memRead16 a s).2 = { s with fault := f, draws := n } := by
  obtain ⟨f, n, h⟩ := memRead_frame a s
  obtain ⟨f', n', h'⟩ := memRead_frame (a + 1#16) (memRead a s).2
  refine ⟨f', n', ?_⟩
  show (memRead (a + 1#16) (memRead a s).2).2 = _
  rw [h', h]

theorem memRead16_of_peek {s : State} {a : Word} {lo hi : Byte} (hlo : s.peek a = some lo) (hhi : s.peek (a + 1#16) = some hi) :
    memRead16 a s = (joinBytes hi lo, s) := by
  simp [memRead16, memRead_of_peek hlo, memRead_of_peek hhi]

/-- All a 16-bit write can change: the fault record and RAM. -/
theorem memWrite16_frame (a v : Word) (s : State) : ∃ f m, memWrite16 a v s = { s with fault := f, ram := m } := by
  obtain ⟨f, m, h⟩ := memWrite_frame a (loByte v) s
  obtain ⟨f', m', h'⟩ := memWrite_frame (a + 1#16) (hiByte v) (memWrite a (loByte v) s)
  refine ⟨f', m', ?_⟩
  show memWrite (a + 1#16) (hiByte v) (memWrite a (loByte v) s) = _
  rw [h', h]

/-- A push in terms of its two byte writes. -/
theorem push16_eq (v : Word) (s : State) :
    push16 v s = { memWrite (s.sp - 2#16) (loByte v) (memWrite (s.sp - 1#16) (hiByte v) s) with sp := s.sp - 2#16 } := rfl

/-- All a push can change: the fault record, RAM and `SP`, which moves by 2. -/
theorem push16_frame (v : Word) (s : State) :
    ∃ f m, push16 v s = { s with fault := f, ram := m, sp := s.sp - 2#16 } := by
  obtain ⟨f, m, h⟩ := memWrite_frame (s.sp - 1#16) (hiByte v) s
  obtain ⟨f', m', h'⟩ := memWrite_frame (s.sp - 2#16) (loByte v) (memWrite (s.sp - 1#16) (hiByte v) s)
  refine ⟨f', m', ?_⟩
  rw [push16_eq, h', h]

/-- A push leaves every byte but the two below `SP` alone. -/
theorem peek_push16_ne {s : State} {b : Word} (h1 : b ≠ s.sp - 1#16) (h2 : b ≠ s.sp - 2#16) (v : Word) :
    (push16 v s).peek b = s.peek b := by
  have : (push16 v s).peek b = (memWrite (s.sp - 2#16) (loByte v) (memWrite (s.sp - 1#16) (hiByte v) s)).peek b := rfl
  rw [this, peek_memWrite_ne h2, peek_memWrite_ne h1]

/-- A push writes the low byte at `SP - 2`, where that is RAM. -/
theorem peek_push16_low {s : State} (h : regionOf (s.sp - 2#16) = .ram) (v : Word) :
    (push16 v s).peek (s.sp - 2#16) = some (loByte v) := by
  have : (push16 v s).peek (s.sp - 2#16)
      = (memWrite (s.sp - 2#16) (loByte v) (memWrite (s.sp - 1#16) (hiByte v) s)).peek (s.sp - 2#16) := rfl
  rw [this, peek_memWrite_self h]

/-- A push writes the high byte at `SP - 1`, where that is RAM. -/
theorem peek_push16_high {s : State} (h : regionOf (s.sp - 1#16) = .ram) (v : Word) :
    (push16 v s).peek (s.sp - 1#16) = some (hiByte v) := by
  have : (push16 v s).peek (s.sp - 1#16)
      = (memWrite (s.sp - 2#16) (loByte v) (memWrite (s.sp - 1#16) (hiByte v) s)).peek (s.sp - 1#16) := rfl
  rw [this, peek_memWrite_ne (by intro e; have := congrArg (fun x => s.sp - x) e; simp at this), peek_memWrite_self h]

theorem push16_ram_wf {s : State} (h : Memory.wf 0x2000 0x3000 s.ram = true) (v : Word) :
    Memory.wf 0x2000 0x3000 (push16 v s).ram = true :=
  memWrite_ram_wf (memWrite_ram_wf h _ _) _ _

/-- All a pop can change: the fault record, the draws and `SP`, which moves by 2. -/
theorem pop16_frame (s : State) : ∃ f n, (pop16 s).2 = { s with fault := f, draws := n, sp := s.sp + 2#16 } := by
  obtain ⟨f, n, h⟩ := memRead16_frame s.sp s
  exact ⟨f, n, by simp [pop16, h]⟩

theorem pop16_of_peek {s : State} {lo hi : Byte} (hlo : s.peek s.sp = some lo) (hhi : s.peek (s.sp + 1#16) = some hi) :
    pop16 s = (joinBytes hi lo, { s with sp := s.sp + 2#16 }) := by
  simp [pop16, memRead16_of_peek hlo hhi]

/-- All the fetch of a byte can change: the fault record, the draws and `PC`, which moves by 1. -/
theorem fetchByte_frame (s : State) : ∃ f n, (fetchByte s).2 = { s with fault := f, draws := n, pc := s.pc + 1#16 } := by
  obtain ⟨f, n, h⟩ := memRead_frame s.pc s
  exact ⟨f, n, by simp [fetchByte, h]⟩

theorem fetchByte_of_peek {s : State} {v : Byte} (h : s.peek s.pc = some v) :
    fetchByte s = (v, { s with pc := s.pc + 1#16 }) := by
  simp [fetchByte, memRead_of_peek h]

/-! ### Joining and splitting words -/

@[simp] theorem joinBytes_hiByte_loByte (w : Word) : joinBytes (hiByte w) (loByte w) = w := by
  unfold joinBytes hiByte loByte
  ext i hi
  simp only [BitVec.getElem_append, BitVec.getElem_extractLsb']
  split
  · rw [BitVec.getLsbD_eq_getElem (by omega)]; congr 1; omega
  · rw [BitVec.getLsbD_eq_getElem (by omega)]; congr 1; omega

@[simp] theorem hiByte_joinBytes (h l : Byte) : hiByte (joinBytes h l) = h := by
  unfold joinBytes hiByte
  ext i hi
  rw [BitVec.getElem_extractLsb', BitVec.getLsbD_append]
  simp [hi]

@[simp] theorem loByte_joinBytes (h l : Byte) : loByte (joinBytes h l) = l := by
  unfold joinBytes loByte
  ext i hi
  rw [BitVec.getElem_extractLsb', BitVec.getLsbD_append]
  simp [hi]

end Sys2Proof.Machine
end

