-- ==== Sys2Proof/Laws/Access.lean ====
section
/-! SUPPORT. What each memory access yields, records and changes, in the terms of Safety.lean: one lemma per access. -/

namespace Sys2Proof.Machine

/-! ### The fault record -/

@[simp] theorem writeFault_rom {a : Word} (h : regionOf a = .rom) : writeFault a = some (.romWrite a) := by simp [writeFault, h]
@[simp] theorem writeFault_ram {a : Word} (h : regionOf a = .ram) : writeFault a = none := by simp [writeFault, h]
@[simp] theorem writeFault_unmapped {a : Word} (h : regionOf a = .unmapped) : writeFault a = some (.undefinedAddressWrite a) := by
  simp [writeFault, h]

@[simp] theorem readFaults_nil : readFaults [] = [] := rfl
@[simp] theorem writeFaults_nil : writeFaults [] = [] := rfl

theorem readFaults_mapped {a : Word} (h : regionOf a ≠ .unmapped) (as : List Word) : readFaults (a :: as) = readFaults as := by
  simp [readFaults, h]

theorem readFaults_unmapped {a : Word} (h : regionOf a = .unmapped) (as : List Word) :
    readFaults (a :: as) = .undefinedAddressRead a :: readFaults as := by
  simp [readFaults, h]

theorem writeFaults_cons_head? (a : Word) (as : List Word) :
    (writeFaults (a :: as)).head? = (writeFault a <|> (writeFaults as).head?) := by
  cases h : writeFault a <;> simp [writeFaults, h]

/-- The first fault of a longer list of accesses. -/
theorem head?_append_orElse (xs ys : List Fault) : (xs ++ ys).head? = (xs.head? <|> ys.head?) := by
  cases xs <;> simp

theorem orElse_assoc_fault (a b c : Option Fault) : ((a <|> b) <|> c) = (a <|> (b <|> c)) := by
  cases a <;> simp

@[simp] theorem orElse_none_fault (a : Option Fault) : (a <|> none) = a := by cases a <;> simp

/-- An access sequence that records nothing. -/
theorem recorded_refl (s : State) : Recorded [] [] s s := by simp [Recorded]

/-! ### Reads -/

/-- What a byte read yields and all it changes. -/
theorem memRead_eq (a : Word) (s : State) :
    memRead a s = (readValue [] a s,
      { s with fault := (s.fault <|> (readFaults [a]).head?), draws := s.draws + (readFaults [a]).length }) := by
  by_cases h : regionOf a = .unmapped
  · rw [memRead_unmapped h]
    simp only [readFaults_unmapped h, readValue, State.peek_eq_none.2 h, State.raise]
    cases s.fault <;> simp
  · obtain ⟨v, hv⟩ := Option.ne_none_iff_exists'.1 (mt State.peek_eq_none.1 h)
    rw [memRead_of_peek hv]
    simp [readFaults_mapped h, readValue, hv]

/-- What a 16-bit read yields and all it changes. -/
theorem memRead16_eq (a : Word) (s : State) :
    memRead16 a s = (readValue16 a s,
      { s with
        fault := (s.fault <|> (readFaults [a, a + 1#16]).head?)
        draws := s.draws + (readFaults [a, a + 1#16]).length }) := by
  have hp : ∀ (f : Option Fault) (n : Nat), ({ s with fault := f, draws := n } : State).peek (a + 1#16) = s.peek (a + 1#16) :=
    fun _ _ => rfl
  simp only [memRead16, readValue16, memRead_eq, readValue, hp, readFaults_nil, List.length_nil, Nat.add_zero]
  congr 2
  · by_cases h1 : regionOf a = .unmapped
    · simp [readFaults_unmapped h1]
    · simp [readFaults_mapped h1]
  · by_cases h1 : regionOf a = .unmapped
    · simp [readFaults_unmapped h1]; omega
    · simp [readFaults_mapped h1]

@[simp] theorem hiByte_readValue16 (a : Word) (s : State) : hiByte (readValue16 a s) = readValue [a] (a + 1#16) s := by
  simp [readValue16]

@[simp] theorem loByte_readValue16 (a : Word) (s : State) : loByte (readValue16 a s) = readValue [] a s := by
  simp [readValue16]

/-- What a pop yields and all it changes. -/
theorem pop16_eq (s : State) :
    pop16 s = (readValue16 s.sp s,
      { s with
        fault := (s.fault <|> (readFaults [s.sp, s.sp + 1#16]).head?)
        draws := s.draws + (readFaults [s.sp, s.sp + 1#16]).length
        sp := s.sp + 2#16 }) := by
  simp [pop16, memRead16_eq]

/-! ### Writes -/

theorem memWrite_fault (a : Word) (v : Byte) (s : State) : (memWrite a v s).fault = (s.fault <|> writeFault a) := by
  cases h : regionOf a
  · rw [memWrite_rom h, writeFault_rom h]; cases hf : s.fault <;> simp [State.raise, hf]
  · rw [memWrite_ram h, writeFault_ram h]; simp
  · rw [memWrite_unmapped h, writeFault_unmapped h]; cases hf : s.fault <;> simp [State.raise, hf]

/-- All a byte write changes: the fault record and RAM. -/
theorem memWrite_eq (a : Word) (v : Byte) (s : State) :
    memWrite a v s = { s with fault := (s.fault <|> writeFault a), ram := (memWrite a v s).ram } := by
  obtain ⟨f, m, h⟩ := memWrite_frame a v s
  have hf := memWrite_fault a v s
  rw [h] at hf ⊢
  simp only at hf
  rw [hf]

theorem stored_memWrite (a : Word) (v : Byte) (s : State) : Stored a v s (memWrite a v s) := by
  unfold Stored
  split_ifs with h
  · exact peek_memWrite_self h v s
  · cases h' : regionOf a
    · rw [memWrite_rom h']; rfl
    · exact absurd h' h
    · rw [memWrite_unmapped h']; rfl

/-- A later write elsewhere keeps what was stored. -/
theorem Stored.memWrite_ne {a b : Word} {v w : Byte} {s t : State} (h : Stored a v s t) (hne : a ≠ b) :
    Stored a v s (memWrite b w t) := by
  unfold Stored at h ⊢
  rw [peek_memWrite_ne hne]
  exact h

/-- An earlier write elsewhere does not matter. -/
theorem Stored.of_memWrite_ne {a b : Word} {v w : Byte} {s t : State} (h : Stored a v (memWrite b w s) t) (hne : a ≠ b) :
    Stored a v s t := by
  unfold Stored at h ⊢
  rw [peek_memWrite_ne hne] at h
  exact h

/-- Two byte writes at different addresses: what is stored, what is recorded, and that no other byte changes. -/
theorem memWrite_two {a b : Word} (hne : a ≠ b) (v w : Byte) (s : State) :
    let t := memWrite b w (memWrite a v s)
    Stored a v s t ∧ Stored b w s t ∧ MemSameBut [a, b] s t ∧ Recorded [] [a, b] s t ∧
    ∃ f m, t = { s with fault := f, ram := m } := by
  refine ⟨(stored_memWrite a v s).memWrite_ne hne, (stored_memWrite b w _).of_memWrite_ne hne.symm, ?_, ?_, ?_⟩
  · intro c hc
    simp only [List.mem_cons, List.not_mem_nil, or_false, not_or] at hc
    rw [peek_memWrite_ne hc.2, peek_memWrite_ne hc.1]
  · constructor
    · rw [memWrite_fault, memWrite_fault, orElse_assoc_fault]
      simp [writeFaults_cons_head?]
    · obtain ⟨f, m, h⟩ := memWrite_frame a v s
      obtain ⟨f', m', h'⟩ := memWrite_frame b w (memWrite a v s)
      rw [h', h]; rfl
  · obtain ⟨f, m, h⟩ := memWrite_frame a v s
    obtain ⟨f', m', h'⟩ := memWrite_frame b w (memWrite a v s)
    exact ⟨f', m', by rw [h', h]⟩

theorem sub_one_ne_sub_two (x : Word) : x - 1#16 ≠ x - 2#16 := by
  intro h
  have := congrArg (fun y => x - y) h
  simp at this

theorem ne_add_one (x : Word) : x ≠ x + 1#16 := by
  intro h
  have := congrArg (fun y => y - x) h
  simp at this

/-- Everything a push does: the two bytes below `SP`, the record, and `SP` itself. -/
theorem push16_spec (v : Word) (s : State) :
    let t := push16 v s
    Stored (s.sp - 1#16) (hiByte v) s t ∧ Stored (s.sp - 2#16) (loByte v) s t ∧
    MemSameBut [s.sp - 1#16, s.sp - 2#16] s t ∧ Recorded [] [s.sp - 1#16, s.sp - 2#16] s t ∧
    ∃ f m, t = { s with fault := f, ram := m, sp := s.sp - 2#16 } := by
  obtain ⟨h1, h2, h3, h4, f, m, h5⟩ := memWrite_two (sub_one_ne_sub_two s.sp) (hiByte v) (loByte v) s
  exact ⟨h1, h2, h3, h4, f, m, by rw [push16_eq, h5]⟩

end Sys2Proof.Machine
end

