-- ==== Sys2Proof/Laws/Families.lean ====
section
/-! SUPPORT. The rows that share a rule share an operation: `exec` of a family member is that operation, and its opcode byte is the
one the bit fields of 30_encoding.md R92 and R93 give. -/

namespace Sys2Proof.Machine

theorem exec_movRR (dst src : Reg8) (s : State) : exec (.movRR dst src) s = movReg dst src s := by
  cases dst <;> cases src <;> rfl
theorem exec_movRM (dst : Reg8) (s : State) : exec (.movRM dst) s = movFromM dst s := by cases dst <;> rfl
theorem exec_movMR (src : Reg8) (s : State) : exec (.movMR src) s = movToM src s := by cases src <;> rfl
theorem exec_mviR (dst : Reg8) (imm : Byte) (s : State) : exec (.mviR dst imm) s = mviReg dst imm s := by cases dst <;> rfl
theorem exec_lxi (p : RegPair) (imm : Word) (s : State) : exec (.lxi p imm) s = loadPairImm p imm s := by cases p <;> rfl
theorem exec_ldax (p : IndirectPair) (s : State) : exec (.ldax p) s = loadIndirect p.toPair s := by cases p <;> rfl
theorem exec_stax (p : IndirectPair) (s : State) : exec (.stax p) s = storeIndirect p.toPair s := by cases p <;> rfl
theorem exec_aluR (op : AluOp) (r : Reg8) (s : State) : exec (.aluR op r) s = aluReg op r s := by
  cases op <;> cases r <;> rfl
theorem exec_aluM (op : AluOp) (s : State) : exec (.aluM op) s = aluMem op s := by cases op <;> rfl
theorem exec_aluI (op : AluOp) (imm : Byte) (s : State) : exec (.aluI op imm) s = aluImm op imm s := by cases op <;> rfl
theorem exec_inrR (r : Reg8) (s : State) : exec (.inrR r) s = incReg r s := by cases r <;> rfl
theorem exec_dcrR (r : Reg8) (s : State) : exec (.dcrR r) s = decReg r s := by cases r <;> rfl
theorem exec_inx (p : RegPair) (s : State) : exec (.inx p) s = incPair p s := by cases p <;> rfl
theorem exec_dcx (p : RegPair) (s : State) : exec (.dcx p) s = decPair p s := by cases p <;> rfl
theorem exec_dad (p : RegPair) (s : State) : exec (.dad p) s = addPair p s := by cases p <;> rfl
theorem exec_jumpCond (cond : Cond) (addr : Word) (s : State) : exec (.jumpCond cond addr) s = jumpIf cond addr s := by
  cases cond <;> rfl
theorem exec_callCond (cond : Cond) (addr : Word) (s : State) : exec (.callCond cond addr) s = callIf cond addr s := by
  cases cond <;> rfl
theorem exec_retCond (cond : Cond) (s : State) : exec (.retCond cond) s = returnIf cond s := by cases cond <;> rfl
theorem exec_push (p : StackPair) (s : State) : exec (.push p) s = pushPair p s := by cases p <;> rfl
theorem exec_pop (p : StackPair) (s : State) : exec (.pop p) s = popPair p s := by cases p <;> rfl
theorem exec_illegal (x : IllegalByte) (s : State) : exec (.illegal x) s = illegalOpcode x.toByte s := by cases x <;> rfl

/-- A value of three bits is one of eight. -/
theorem bitVec3_cases (n : BitVec 3) : n = 0 ∨ n = 1 ∨ n = 2 ∨ n = 3 ∨ n = 4 ∨ n = 5 ∨ n = 6 ∨ n = 7 := by
  revert n; decide

theorem exec_rst (n : BitVec 3) (s : State) : exec (.rst n) s = restart n s := by
  rcases bitVec3_cases n with rfl | rfl | rfl | rfl | rfl | rfl | rfl | rfl <;> rfl

theorem encode_rst (n : BitVec 3) : encode (.rst n) = [0b11#2 ++ n ++ 0b111#3] := by
  rcases bitVec3_cases n with rfl | rfl | rfl | rfl | rfl | rfl | rfl | rfl <;> rfl

theorem restartTarget_eq (n : BitVec 3) : restartTarget n = BitVec.ofNat 16 (8 * n.toNat) := by
  rcases bitVec3_cases n with rfl | rfl | rfl | rfl | rfl | rfl | rfl | rfl <;> rfl

/-- The families of rows that share a rule: every instruction is in one (`Instr.inFamily`), so that a claim about all
instructions is a claim about these. -/
inductive InFamily : Instr → Prop where
  | movRR (dst src : Reg8) : InFamily (.movRR dst src)
  | movRM (dst : Reg8) : InFamily (.movRM dst)
  | movMR (src : Reg8) : InFamily (.movMR src)
  | mviR (dst : Reg8) (imm : Byte) : InFamily (.mviR dst imm)
  | mviM (imm : Byte) : InFamily (.mviM imm)
  | lxi (p : RegPair) (imm : Word) : InFamily (.lxi p imm)
  | lda (addr : Word) : InFamily (.lda addr)
  | sta (addr : Word) : InFamily (.sta addr)
  | lhld (addr : Word) : InFamily (.lhld addr)
  | shld (addr : Word) : InFamily (.shld addr)
  | ldax (p : IndirectPair) : InFamily (.ldax p)
  | stax (p : IndirectPair) : InFamily (.stax p)
  | xchg : InFamily .xchg
  | aluR (op : AluOp) (r : Reg8) : InFamily (.aluR op r)
  | aluM (op : AluOp) : InFamily (.aluM op)
  | aluI (op : AluOp) (imm : Byte) : InFamily (.aluI op imm)
  | inrR (r : Reg8) : InFamily (.inrR r)
  | inrM : InFamily .inrM
  | dcrR (r : Reg8) : InFamily (.dcrR r)
  | dcrM : InFamily .dcrM
  | inx (p : RegPair) : InFamily (.inx p)
  | dcx (p : RegPair) : InFamily (.dcx p)
  | dad (p : RegPair) : InFamily (.dad p)
  | daa : InFamily .daa
  | rlc : InFamily .rlc
  | rrc : InFamily .rrc
  | ral : InFamily .ral
  | rar : InFamily .rar
  | cma : InFamily .cma
  | cmc : InFamily .cmc
  | stc : InFamily .stc
  | jmp (addr : Word) : InFamily (.jmp addr)
  | jumpCond (cond : Cond) (addr : Word) : InFamily (.jumpCond cond addr)
  | call (addr : Word) : InFamily (.call addr)
  | callCond (cond : Cond) (addr : Word) : InFamily (.callCond cond addr)
  | ret : InFamily .ret
  | retCond (cond : Cond) : InFamily (.retCond cond)
  | rst (n : BitVec 3) : InFamily (.rst n)
  | pchl : InFamily .pchl
  | push (p : StackPair) : InFamily (.push p)
  | pop (p : StackPair) : InFamily (.pop p)
  | xthl : InFamily .xthl
  | sphl : InFamily .sphl
  | inPort (port : Byte) : InFamily (.inPort port)
  | outPort (port : Byte) : InFamily (.outPort port)
  | ei : InFamily .ei
  | di : InFamily .di
  | hlt : InFamily .hlt
  | nop : InFamily .nop
  | illegal (x : IllegalByte) : InFamily (.illegal x)

/-- Every instruction is a member of a family. -/
theorem Instr.inFamily (i : Instr) : InFamily i :=
  match i with
  | .movBB => .movRR .b .b
  | .movBC => .movRR .b .c
  | .movBD => .movRR .b .d
  | .movBE => .movRR .b .e
  | .movBH => .movRR .b .h
  | .movBL => .movRR .b .l
  | .movBA => .movRR .b .a
  | .movCB => .movRR .c .b
  | .movCC => .movRR .c .c
  | .movCD => .movRR .c .d
  | .movCE => .movRR .c .e
  | .movCH => .movRR .c .h
  | .movCL => .movRR .c .l
  | .movCA => .movRR .c .a
  | .movDB => .movRR .d .b
  | .movDC => .movRR .d .c
  | .movDD => .movRR .d .d
  | .movDE => .movRR .d .e
  | .movDH => .movRR .d .h
  | .movDL => .movRR .d .l
  | .movDA => .movRR .d .a
  | .movEB => .movRR .e .b
  | .movEC => .movRR .e .c
  | .movED => .movRR .e .d
  | .movEE => .movRR .e .e
  | .movEH => .movRR .e .h
  | .movEL => .movRR .e .l
  | .movEA => .movRR .e .a
  | .movHB => .movRR .h .b
  | .movHC => .movRR .h .c
  | .movHD => .movRR .h .d
  | .movHE => .movRR .h .e
  | .movHH => .movRR .h .h
  | .movHL => .movRR .h .l
  | .movHA => .movRR .h .a
  | .movLB => .movRR .l .b
  | .movLC => .movRR .l .c
  | .movLD => .movRR .l .d
  | .movLE => .movRR .l .e
  | .movLH => .movRR .l .h
  | .movLL => .movRR .l .l
  | .movLA => .movRR .l .a
  | .movAB => .movRR .a .b
  | .movAC => .movRR .a .c
  | .movAD => .movRR .a .d
  | .movAE => .movRR .a .e
  | .movAH => .movRR .a .h
  | .movAL => .movRR .a .l
  | .movAA => .movRR .a .a
  | .movBM => .movRM .b
  | .movCM => .movRM .c
  | .movDM => .movRM .d
  | .movEM => .movRM .e
  | .movHM => .movRM .h
  | .movLM => .movRM .l
  | .movAM => .movRM .a
  | .movMB => .movMR .b
  | .movMC => .movMR .c
  | .movMD => .movMR .d
  | .movME => .movMR .e
  | .movMH => .movMR .h
  | .movML => .movMR .l
  | .movMA => .movMR .a
  | .mviB imm => .mviR .b imm
  | .mviC imm => .mviR .c imm
  | .mviD imm => .mviR .d imm
  | .mviE imm => .mviR .e imm
  | .mviH imm => .mviR .h imm
  | .mviL imm => .mviR .l imm
  | .mviA imm => .mviR .a imm
  | .mviM imm => .mviM imm
  | .lxiB imm => .lxi .bc imm
  | .lxiD imm => .lxi .de imm
  | .lxiH imm => .lxi .hl imm
  | .lxiSP imm => .lxi .sp imm
  | .lda addr => .lda addr
  | .sta addr => .sta addr
  | .lhld addr => .lhld addr
  | .shld addr => .shld addr
  | .ldaxB => .ldax .bc
  | .ldaxD => .ldax .de
  | .staxB => .stax .bc
  | .staxD => .stax .de
  | .xchg => .xchg
  | .addB => .aluR .add .b
  | .addC => .aluR .add .c
  | .addD => .aluR .add .d
  | .addE => .aluR .add .e
  | .addH => .aluR .add .h
  | .addL => .aluR .add .l
  | .addA => .aluR .add .a
  | .addM => .aluM .add
  | .adi imm => .aluI .add imm
  | .adcB => .aluR .adc .b
  | .adcC => .aluR .adc .c
  | .adcD => .aluR .adc .d
  | .adcE => .aluR .adc .e
  | .adcH => .aluR .adc .h
  | .adcL => .aluR .adc .l
  | .adcA => .aluR .adc .a
  | .adcM => .aluM .adc
  | .aci imm => .aluI .adc imm
  | .subB => .aluR .sub .b
  | .subC => .aluR .sub .c
  | .subD => .aluR .sub .d
  | .subE => .aluR .sub .e
  | .subH => .aluR .sub .h
  | .subL => .aluR .sub .l
  | .subA => .aluR .sub .a
  | .subM => .aluM .sub
  | .sui imm => .aluI .sub imm
  | .sbbB => .aluR .sbb .b
  | .sbbC => .aluR .sbb .c
  | .sbbD => .aluR .sbb .d
  | .sbbE => .aluR .sbb .e
  | .sbbH => .aluR .sbb .h
  | .sbbL => .aluR .sbb .l
  | .sbbA => .aluR .sbb .a
  | .sbbM => .aluM .sbb
  | .sbi imm => .aluI .sbb imm
  | .inrB => .inrR .b
  | .inrC => .inrR .c
  | .inrD => .inrR .d
  | .inrE => .inrR .e
  | .inrH => .inrR .h
  | .inrL => .inrR .l
  | .inrA => .inrR .a
  | .inrM => .inrM
  | .dcrB => .dcrR .b
  | .dcrC => .dcrR .c
  | .dcrD => .dcrR .d
  | .dcrE => .dcrR .e
  | .dcrH => .dcrR .h
  | .dcrL => .dcrR .l
  | .dcrA => .dcrR .a
  | .dcrM => .dcrM
  | .inxB => .inx .bc
  | .inxD => .inx .de
  | .inxH => .inx .hl
  | .inxSP => .inx .sp
  | .dcxB => .dcx .bc
  | .dcxD => .dcx .de
  | .dcxH => .dcx .hl
  | .dcxSP => .dcx .sp
  | .dadB => .dad .bc
  | .dadD => .dad .de
  | .dadH => .dad .hl
  | .dadSP => .dad .sp
  | .daa => .daa
  | .anaB => .aluR .ana .b
  | .anaC => .aluR .ana .c
  | .anaD => .aluR .ana .d
  | .anaE => .aluR .ana .e
  | .anaH => .aluR .ana .h
  | .anaL => .aluR .ana .l
  | .anaA => .aluR .ana .a
  | .anaM => .aluM .ana
  | .ani imm => .aluI .ana imm
  | .xraB => .aluR .xra .b
  | .xraC => .aluR .xra .c
  | .xraD => .aluR .xra .d
  | .xraE => .aluR .xra .e
  | .xraH => .aluR .xra .h
  | .xraL => .aluR .xra .l
  | .xraA => .aluR .xra .a
  | .xraM => .aluM .xra
  | .xri imm => .aluI .xra imm
  | .oraB => .aluR .ora .b
  | .oraC => .aluR .ora .c
  | .oraD => .aluR .ora .d
  | .oraE => .aluR .ora .e
  | .oraH => .aluR .ora .h
  | .oraL => .aluR .ora .l
  | .oraA => .aluR .ora .a
  | .oraM => .aluM .ora
  | .ori imm => .aluI .ora imm
  | .cmpB => .aluR .cmp .b
  | .cmpC => .aluR .cmp .c
  | .cmpD => .aluR .cmp .d
  | .cmpE => .aluR .cmp .e
  | .cmpH => .aluR .cmp .h
  | .cmpL => .aluR .cmp .l
  | .cmpA => .aluR .cmp .a
  | .cmpM => .aluM .cmp
  | .cpi imm => .aluI .cmp imm
  | .rlc => .rlc
  | .rrc => .rrc
  | .ral => .ral
  | .rar => .rar
  | .cma => .cma
  | .cmc => .cmc
  | .stc => .stc
  | .jmp addr => .jmp addr
  | .jnz addr => .jumpCond .nz addr
  | .jz addr => .jumpCond .z addr
  | .jnc addr => .jumpCond .nc addr
  | .jc addr => .jumpCond .c addr
  | .jpo addr => .jumpCond .po addr
  | .jpe addr => .jumpCond .pe addr
  | .jp addr => .jumpCond .p addr
  | .jm addr => .jumpCond .m addr
  | .call addr => .call addr
  | .cnz addr => .callCond .nz addr
  | .cz addr => .callCond .z addr
  | .cnc addr => .callCond .nc addr
  | .cc addr => .callCond .c addr
  | .cpo addr => .callCond .po addr
  | .cpe addr => .callCond .pe addr
  | .cp addr => .callCond .p addr
  | .cm addr => .callCond .m addr
  | .ret => .ret
  | .rnz => .retCond .nz
  | .rz => .retCond .z
  | .rnc => .retCond .nc
  | .rc => .retCond .c
  | .rpo => .retCond .po
  | .rpe => .retCond .pe
  | .rp => .retCond .p
  | .rm => .retCond .m
  | .rst0 => .rst 0#3
  | .rst1 => .rst 1#3
  | .rst2 => .rst 2#3
  | .rst3 => .rst 3#3
  | .rst4 => .rst 4#3
  | .rst5 => .rst 5#3
  | .rst6 => .rst 6#3
  | .rst7 => .rst 7#3
  | .pchl => .pchl
  | .pushB => .push .bc
  | .pushD => .push .de
  | .pushH => .push .hl
  | .pushPSW => .push .psw
  | .popPSW => .pop .psw
  | .popB => .pop .bc
  | .popD => .pop .de
  | .popH => .pop .hl
  | .xthl => .xthl
  | .sphl => .sphl
  | .inPort port => .inPort port
  | .outPort port => .outPort port
  | .ei => .ei
  | .di => .di
  | .hlt => .hlt
  | .nop => .nop
  | .illegal08 => .illegal .x08
  | .illegal10 => .illegal .x10
  | .illegal18 => .illegal .x18
  | .illegal20 => .illegal .x20
  | .illegal28 => .illegal .x28
  | .illegal30 => .illegal .x30
  | .illegal38 => .illegal .x38
  | .illegalCB => .illegal .xCB
  | .illegalD9 => .illegal .xD9
  | .illegalDD => .illegal .xDD
  | .illegalED => .illegal .xED
  | .illegalFD => .illegal .xFD

end Sys2Proof.Machine
end

