-- ==== Sys2Proof/Laws/CoreUpdate.lean ====
section
/-! SUPPORT. What every instruction has in common: outside the two port operations it changes the core and RAM only, keeps the form
of RAM and keeps a recorded fault. Claims over all instructions cite `exec_update`. -/

namespace Sys2Proof.Machine

/-- `t` differs from `s` in core registers and RAM only, and keeps what a claim over all instructions needs. -/
structure CoreUpdate (s t : State) : Prop where
  card : CardSame s t
  rom : t.rom = s.rom
  cyc : t.cyc = s.cyc
  intReq : t.intReq = s.intReq
  intVec : t.intVec = s.intVec
  ramForm : Memory.wf 0x2000 0x3000 s.ram = true → Memory.wf 0x2000 0x3000 t.ram = true
  sticky : ∀ f, s.fault = some f → t.fault = some f

/-- The general shape of a core update. -/
theorem CoreUpdate.intro {s t : State}
    (h : ∃ a b c d e h l flags sp pc inte eiShadow halted x ram draws op,
      (Memory.wf 0x2000 0x3000 s.ram = true → Memory.wf 0x2000 0x3000 ram = true) ∧
      t = { s with
        a := a, b := b, c := c, d := d, e := e, h := h, l := l, flags := flags, sp := sp, pc := pc, inte := inte
        eiShadow := eiShadow, halted := halted, fault := (s.fault <|> x), ram := ram, draws := draws, opCycles := op }) :
    CoreUpdate s t := by
  obtain ⟨a, b, c, d, e, h, l, flags, sp, pc, inte, eiShadow, halted, x, ram, draws, op, hw, rfl⟩ := h
  exact ⟨⟨rfl, rfl, rfl, rfl, rfl⟩, rfl, rfl, rfl, rfl, hw, fun f hf => by simp [hf]⟩

/-- A core update that touches neither RAM nor the fault record. -/
theorem CoreUpdate.registers {s t : State}
    (h : ∃ a b c d e h l flags sp pc inte eiShadow halted op, t = { s with
      a := a, b := b, c := c, d := d, e := e, h := h, l := l, flags := flags, sp := sp, pc := pc, inte := inte
      eiShadow := eiShadow, halted := halted, opCycles := op }) : CoreUpdate s t := by
  obtain ⟨a, b, c, d, e, h, l, flags, sp, pc, inte, eiShadow, halted, op, rfl⟩ := h
  exact ⟨⟨rfl, rfl, rfl, rfl, rfl⟩, rfl, rfl, rfl, rfl, id, fun _ => id⟩

theorem CoreUpdate.refl (s : State) : CoreUpdate s s :=
  ⟨⟨rfl, rfl, rfl, rfl, rfl⟩, rfl, rfl, rfl, rfl, id, fun _ => id⟩

theorem CoreUpdate.trans {s t u : State} (h : CoreUpdate s t) (k : CoreUpdate t u) : CoreUpdate s u :=
  ⟨⟨k.card.bus.trans h.card.bus, k.card.uart.trans h.card.uart, k.card.sched.trans h.card.sched, k.card.trace.trans h.card.trace,
      k.card.cfg.trans h.card.cfg⟩,
    k.rom.trans h.rom, k.cyc.trans h.cyc, k.intReq.trans h.intReq, k.intVec.trans h.intVec,
    fun w => k.ramForm (h.ramForm w), fun f hf => k.sticky f (h.sticky f hf)⟩

/-- A core update only sees the fields it names: the ROM, and so the bytes outside RAM, stay. -/
theorem CoreUpdate.peek_rom {s t : State} (h : CoreUpdate s t) {a : Word} (ha : regionOf a ≠ .ram) : t.peek a = s.peek a := by
  unfold State.peek
  cases hr : regionOf a
  · simp [h.rom]
  · exact absurd hr ha
  · rfl

theorem CoreUpdate.raise (f : Fault) (s : State) : CoreUpdate s (s.raise f) :=
  ⟨⟨rfl, rfl, rfl, rfl, rfl⟩, rfl, rfl, rfl, rfl, id, fun g hg => by simp [hg]⟩

theorem CoreUpdate.memRead (a : Word) (s : State) : CoreUpdate s (memRead a s).2 := by
  rw [memRead_eq]
  exact .intro ⟨_, _, _, _, _, _, _, _, _, _, _, _, _, _, _, _, _, id, rfl⟩

theorem CoreUpdate.memWrite (a : Word) (v : Byte) (s : State) : CoreUpdate s (memWrite a v s) := by
  have h := memWrite_eq a v s
  rw [h]
  exact .intro ⟨_, _, _, _, _, _, _, _, _, _, _, _, _, _, _, _, _, fun w => memWrite_ram_wf w a v, rfl⟩

theorem CoreUpdate.memRead16 (a : Word) (s : State) : CoreUpdate s (memRead16 a s).2 :=
  (CoreUpdate.memRead a s).trans (CoreUpdate.memRead _ _)

theorem CoreUpdate.memWrite16 (a v : Word) (s : State) : CoreUpdate s (memWrite16 a v s) :=
  (CoreUpdate.memWrite a (loByte v) s).trans (CoreUpdate.memWrite _ _ _)

theorem CoreUpdate.push16 (v : Word) (s : State) : CoreUpdate s (push16 v s) :=
  ((CoreUpdate.memWrite (s.sp - 1#16) (hiByte v) s).trans (CoreUpdate.memWrite (s.sp - 2#16) (loByte v) _)).trans
    (.registers ⟨_, _, _, _, _, _, _, _, _, _, _, _, _, _, rfl⟩)

theorem CoreUpdate.pop16 (s : State) : CoreUpdate s (pop16 s).2 :=
  (CoreUpdate.memRead16 s.sp s).trans (.registers ⟨_, _, _, _, _, _, _, _, _, _, _, _, _, _, rfl⟩)

theorem CoreUpdate.setReg (r : Reg8) (v : Byte) (s : State) : CoreUpdate s (s.setReg r v) := by
  cases r <;> exact .registers ⟨_, _, _, _, _, _, _, _, _, _, _, _, _, _, rfl⟩

theorem CoreUpdate.setPair (p : RegPair) (v : Word) (s : State) : CoreUpdate s (s.setPair p v) := by
  cases p <;> exact .registers ⟨_, _, _, _, _, _, _, _, _, _, _, _, _, _, rfl⟩

theorem CoreUpdate.setStackPair (p : StackPair) (v : Word) (s : State) : CoreUpdate s (s.setStackPair p v) := by
  cases p <;> exact .registers ⟨_, _, _, _, _, _, _, _, _, _, _, _, _, _, rfl⟩

/-- Registers change after another update. -/
theorem CoreUpdate.then {s u t : State} (h : CoreUpdate s u)
    (k : ∃ a b c d e h l flags sp pc inte eiShadow halted op, t = { u with
      a := a, b := b, c := c, d := d, e := e, h := h, l := l, flags := flags, sp := sp, pc := pc, inte := inte
      eiShadow := eiShadow, halted := halted, opCycles := op }) : CoreUpdate s t :=
  h.trans (.registers k)

theorem CoreUpdate.fetchByte (s : State) : CoreUpdate s (fetchByte s).2 :=
  (CoreUpdate.memRead s.pc s).then ⟨_, _, _, _, _, _, _, _, _, _, _, _, _, _, rfl⟩

theorem CoreUpdate.acceptInterrupt (s : State) : CoreUpdate s (acceptInterrupt s) := by
  unfold Machine.acceptInterrupt
  have h0 : CoreUpdate s { s with inte := false, halted := false, eiShadow := false } :=
    .registers ⟨_, _, _, _, _, _, _, _, _, _, _, _, _, _, rfl⟩
  dsimp only
  split
  · exact (h0.trans (CoreUpdate.push16 _ _)).then ⟨_, _, _, _, _, _, _, _, _, _, _, _, _, _, rfl⟩
  · exact (h0.trans (CoreUpdate.raise _ _)).then ⟨_, _, _, _, _, _, _, _, _, _, _, _, _, _, rfl⟩

/-- Every instruction answers a next state, which is a core update of the state its port operation, if it has one, leads to. -/
theorem exec_update (i : Instr) (s : State) :
    ∃ t, exec i s = .next t ∧
      ((∀ port, i ≠ .inPort port ∧ i ≠ .outPort port) ∧ CoreUpdate s t ∨
        (∃ port, i = .inPort port ∧ CoreUpdate (portRead port s).2 t) ∨
        ∃ port, i = .outPort port ∧ CoreUpdate (portWrite port s.a s) t) := by
  have plain : ∀ {i : Instr} {t : State}, (∀ port, i ≠ .inPort port ∧ i ≠ .outPort port) → exec i s = .next t → CoreUpdate s t →
      ∃ t, exec i s = .next t ∧
        ((∀ port, i ≠ .inPort port ∧ i ≠ .outPort port) ∧ CoreUpdate s t ∨
          (∃ port, i = .inPort port ∧ CoreUpdate (portRead port s).2 t) ∨
          ∃ port, i = .outPort port ∧ CoreUpdate (portWrite port s.a s) t) :=
    fun hne h hu => ⟨_, h, .inl ⟨hne, hu⟩⟩
  cases Instr.inFamily i with
  | movRR dst src =>
    exact plain (by cases dst <;> cases src <;> exact fun _ => ⟨nofun, nofun⟩) (exec_movRR dst src s)
      ((CoreUpdate.setReg _ _ s).then ⟨_, _, _, _, _, _, _, _, _, _, _, _, _, _, rfl⟩)
  | movRM dst =>
    exact plain (by cases dst <;> exact fun _ => ⟨nofun, nofun⟩) (exec_movRM dst s)
      (((CoreUpdate.memRead _ s).trans (CoreUpdate.setReg _ _ _)).then ⟨_, _, _, _, _, _, _, _, _, _, _, _, _, _, rfl⟩)
  | movMR src =>
    exact plain (by cases src <;> exact fun _ => ⟨nofun, nofun⟩) (exec_movMR src s)
      ((CoreUpdate.memWrite _ _ s).then ⟨_, _, _, _, _, _, _, _, _, _, _, _, _, _, rfl⟩)
  | mviR dst imm =>
    exact plain (by cases dst <;> exact fun _ => ⟨nofun, nofun⟩) (exec_mviR dst imm s)
      ((CoreUpdate.setReg _ _ s).then ⟨_, _, _, _, _, _, _, _, _, _, _, _, _, _, rfl⟩)
  | mviM imm =>
    exact plain (fun _ => ⟨nofun, nofun⟩) rfl
      ((CoreUpdate.memWrite _ _ s).then ⟨_, _, _, _, _, _, _, _, _, _, _, _, _, _, rfl⟩)
  | lxi p imm =>
    exact plain (by cases p <;> exact fun _ => ⟨nofun, nofun⟩) (exec_lxi p imm s)
      ((CoreUpdate.setPair _ _ s).then ⟨_, _, _, _, _, _, _, _, _, _, _, _, _, _, rfl⟩)
  | lda addr =>
    exact plain (fun _ => ⟨nofun, nofun⟩) rfl
      ((CoreUpdate.memRead _ s).then ⟨_, _, _, _, _, _, _, _, _, _, _, _, _, _, rfl⟩)
  | sta addr =>
    exact plain (fun _ => ⟨nofun, nofun⟩) rfl
      ((CoreUpdate.memWrite _ _ s).then ⟨_, _, _, _, _, _, _, _, _, _, _, _, _, _, rfl⟩)
  | lhld addr =>
    exact plain (fun _ => ⟨nofun, nofun⟩) rfl
      ((CoreUpdate.memRead16 _ s).then ⟨_, _, _, _, _, _, _, _, _, _, _, _, _, _, rfl⟩)
  | shld addr =>
    exact plain (fun _ => ⟨nofun, nofun⟩) rfl
      ((CoreUpdate.memWrite16 _ _ s).then ⟨_, _, _, _, _, _, _, _, _, _, _, _, _, _, rfl⟩)
  | ldax p =>
    exact plain (by cases p <;> exact fun _ => ⟨nofun, nofun⟩) (exec_ldax p s)
      ((CoreUpdate.memRead _ s).then ⟨_, _, _, _, _, _, _, _, _, _, _, _, _, _, rfl⟩)
  | stax p =>
    exact plain (by cases p <;> exact fun _ => ⟨nofun, nofun⟩) (exec_stax p s)
      ((CoreUpdate.memWrite _ _ s).then ⟨_, _, _, _, _, _, _, _, _, _, _, _, _, _, rfl⟩)
  | aluR op r =>
    exact plain (by cases op <;> cases r <;> exact fun _ => ⟨nofun, nofun⟩) (exec_aluR op r s)
      (.registers ⟨_, _, _, _, _, _, _, _, _, _, _, _, _, _, rfl⟩)
  | aluM op =>
    exact plain (by cases op <;> exact fun _ => ⟨nofun, nofun⟩) (exec_aluM op s)
      ((CoreUpdate.memRead _ s).then ⟨_, _, _, _, _, _, _, _, _, _, _, _, _, _, rfl⟩)
  | aluI op imm =>
    exact plain (by cases op <;> exact fun _ => ⟨nofun, nofun⟩) (exec_aluI op imm s)
      (.registers ⟨_, _, _, _, _, _, _, _, _, _, _, _, _, _, rfl⟩)
  | inrR r =>
    exact plain (by cases r <;> exact fun _ => ⟨nofun, nofun⟩) (exec_inrR r s)
      ((CoreUpdate.setReg _ _ s).then ⟨_, _, _, _, _, _, _, _, _, _, _, _, _, _, rfl⟩)
  | inrM | dcrM =>
    exact plain (fun _ => ⟨nofun, nofun⟩) rfl
      ((((CoreUpdate.memRead _ s).then ⟨_, _, _, _, _, _, _, _, _, _, _, _, _, _, rfl⟩).trans (CoreUpdate.memWrite _ _ _)).then
        ⟨_, _, _, _, _, _, _, _, _, _, _, _, _, _, rfl⟩)
  | dcrR r =>
    exact plain (by cases r <;> exact fun _ => ⟨nofun, nofun⟩) (exec_dcrR r s)
      ((CoreUpdate.setReg _ _ s).then ⟨_, _, _, _, _, _, _, _, _, _, _, _, _, _, rfl⟩)
  | inx p =>
    exact plain (by cases p <;> exact fun _ => ⟨nofun, nofun⟩) (exec_inx p s)
      ((CoreUpdate.setPair _ _ s).then ⟨_, _, _, _, _, _, _, _, _, _, _, _, _, _, rfl⟩)
  | dcx p =>
    exact plain (by cases p <;> exact fun _ => ⟨nofun, nofun⟩) (exec_dcx p s)
      ((CoreUpdate.setPair _ _ s).then ⟨_, _, _, _, _, _, _, _, _, _, _, _, _, _, rfl⟩)
  | dad p =>
    exact plain (by cases p <;> exact fun _ => ⟨nofun, nofun⟩) (exec_dad p s)
      (.registers ⟨_, _, _, _, _, _, _, _, _, _, _, _, _, _, rfl⟩)
  | daa | rlc | rrc | ral | rar | cma | cmc | stc | jmp | pchl | sphl | xchg | ei | di | hlt | nop =>
    exact plain (fun _ => ⟨nofun, nofun⟩) rfl (.registers ⟨_, _, _, _, _, _, _, _, _, _, _, _, _, _, rfl⟩)
  | jumpCond cond addr =>
    refine plain (t := { s with pc := if condHolds cond s.flags then addr else s.pc, opCycles := 10 })
      (by cases cond <;> exact fun _ => ⟨nofun, nofun⟩) ((exec_jumpCond cond addr s).trans ?_) (.registers ⟨_, _, _, _, _, _, _, _, _, _, _, _, _, _, rfl⟩)
    unfold jumpIf
    split <;> rfl
  | call addr =>
    exact plain (fun _ => ⟨nofun, nofun⟩) rfl
      ((CoreUpdate.push16 _ s).then ⟨_, _, _, _, _, _, _, _, _, _, _, _, _, _, rfl⟩)
  | callCond cond addr =>
    have hne : ∀ port, Instr.callCond cond addr ≠ .inPort port ∧ Instr.callCond cond addr ≠ .outPort port := by
      cases cond <;> exact fun _ => ⟨nofun, nofun⟩
    by_cases h : condHolds cond s.flags = true
    · refine plain hne ((exec_callCond cond addr s).trans (by unfold callIf; rw [if_pos h]; rfl)) ?_
      exact (CoreUpdate.push16 _ s).then ⟨_, _, _, _, _, _, _, _, _, _, _, _, _, _, rfl⟩
    · refine plain hne ((exec_callCond cond addr s).trans (by unfold callIf; rw [if_neg h]; rfl)) ?_
      exact .registers ⟨_, _, _, _, _, _, _, _, _, _, _, _, _, _, rfl⟩
  | ret =>
    exact plain (fun _ => ⟨nofun, nofun⟩) rfl
      ((CoreUpdate.pop16 s).then ⟨_, _, _, _, _, _, _, _, _, _, _, _, _, _, rfl⟩)
  | retCond cond =>
    have hne : ∀ port, Instr.retCond cond ≠ .inPort port ∧ Instr.retCond cond ≠ .outPort port := by
      cases cond <;> exact fun _ => ⟨nofun, nofun⟩
    by_cases h : condHolds cond s.flags = true
    · refine plain hne ((exec_retCond cond s).trans (by unfold returnIf; rw [if_pos h]; rfl)) ?_
      exact (CoreUpdate.pop16 s).then ⟨_, _, _, _, _, _, _, _, _, _, _, _, _, _, rfl⟩
    · refine plain hne ((exec_retCond cond s).trans (by unfold returnIf; rw [if_neg h]; rfl)) ?_
      exact .registers ⟨_, _, _, _, _, _, _, _, _, _, _, _, _, _, rfl⟩
  | rst n =>
    exact plain (by rcases bitVec3_cases n with rfl | rfl | rfl | rfl | rfl | rfl | rfl | rfl <;> exact fun _ => ⟨nofun, nofun⟩)
      (exec_rst n s) ((CoreUpdate.push16 _ s).then ⟨_, _, _, _, _, _, _, _, _, _, _, _, _, _, rfl⟩)
  | push p =>
    exact plain (by cases p <;> exact fun _ => ⟨nofun, nofun⟩) (exec_push p s)
      ((CoreUpdate.push16 _ s).then ⟨_, _, _, _, _, _, _, _, _, _, _, _, _, _, rfl⟩)
  | pop p =>
    exact plain (by cases p <;> exact fun _ => ⟨nofun, nofun⟩) (exec_pop p s)
      (((CoreUpdate.pop16 s).trans (CoreUpdate.setStackPair _ _ _)).then ⟨_, _, _, _, _, _, _, _, _, _, _, _, _, _, rfl⟩)
  | xthl =>
    refine plain (fun _ => ⟨nofun, nofun⟩) rfl ?_
    exact ((((CoreUpdate.memRead16 _ s).trans (CoreUpdate.memWrite _ _ _)).trans (CoreUpdate.memWrite _ _ _)).trans
      (CoreUpdate.setPair _ _ _)).then ⟨_, _, _, _, _, _, _, _, _, _, _, _, _, _, rfl⟩
  | inPort port =>
    exact ⟨_, rfl, .inr (.inl ⟨port, rfl, .registers ⟨_, _, _, _, _, _, _, _, _, _, _, _, _, _, rfl⟩⟩)⟩
  | outPort port =>
    exact ⟨_, rfl, .inr (.inr ⟨port, rfl, .registers ⟨_, _, _, _, _, _, _, _, _, _, _, _, _, _, rfl⟩⟩)⟩
  | illegal x =>
    exact plain (by cases x <;> exact fun _ => ⟨nofun, nofun⟩) (exec_illegal x s)
      ((CoreUpdate.raise _ s).then ⟨_, _, _, _, _, _, _, _, _, _, _, _, _, _, rfl⟩)

end Sys2Proof.Machine
end

