-- ==== Sys2Proof/Laws/Decode.lean ====
section
/-! SUPPORT. The decoder by the template of the opcode byte: what each template's instruction encodes to, and what decoding answers. -/

namespace Sys2Proof

/-- The template's instructions are encoded with this opcode byte and the operand bytes in their order. -/
def Template.encodesWith (op : Byte) : Template → Prop
  | .fixed i => encode i = [op]
  | .imm8 mk => ∀ b, encode (mk b) = [op, b]
  | .imm16 mk => ∀ w, encode (mk w) = [op, loByte w, hiByte w]

/-- How many bytes an instruction of the template has. -/
def Template.length : Template → Nat
  | .fixed _ => 1
  | .imm8 _ => 2
  | .imm16 _ => 3

theorem templateOf_encodesWith (op : Byte) : (templateOf op).encodesWith op := by
  obtain ⟨n, hn, rfl⟩ : ∃ n, n < 256 ∧ op = BitVec.ofNat 8 n := ⟨op.toNat, op.isLt, by simp⟩
  interval_cases n <;> first | exact @rfl (List Byte) _ | exact fun (_ : Byte) => @rfl (List Byte) _ | exact fun (_ : Word) => @rfl (List Byte) _

theorem templateOf_length (op : Byte) : (templateOf op).length = instrLength op := by
  have : ∀ op : Byte, (templateOf op).length = instrLength op := by decide
  exact this op

/-! ### What decoding answers, by the template of the first byte -/

theorem decode_fixed {op : Byte} {i : Instr} (h : templateOf op = .fixed i) (rest : List Byte) :
    decode (op :: rest) = .ok (i, rest) := by
  simp [decode, h]

theorem decode_imm8 {op : Byte} {mk : Byte → Instr} (h : templateOf op = .imm8 mk) (b : Byte) (rest : List Byte) :
    decode (op :: b :: rest) = .ok (mk b, rest) := by
  simp [decode, h]

theorem decode_imm8_short {op : Byte} {mk : Byte → Instr} (h : templateOf op = .imm8 mk) :
    decode [op] = .error (.truncated op) := by
  simp [decode, h]

theorem decode_imm16 {op : Byte} {mk : Word → Instr} (h : templateOf op = .imm16 mk) (lo hi : Byte) (rest : List Byte) :
    decode (op :: lo :: hi :: rest) = .ok (mk (joinBytes hi lo), rest) := by
  simp [decode, h]

theorem decode_imm16_short {op : Byte} {mk : Word → Instr} (h : templateOf op = .imm16 mk) {operands : List Byte}
    (hl : operands.length < 2) : decode (op :: operands) = .error (.truncated op) := by
  match operands, hl with
  | [], _ => simp [decode, h]
  | [_], _ => simp [decode, h]

end Sys2Proof
end

