-- ==== Sys2Proof/Laws/Uart.lean ====
section
/-! SUPPORT. Flow control and the receive FIFO: what each operation can do. -/

namespace Sys2Proof.Machine

theorem State.setChan_setChan (k : Chan) (c d : Channel) (s : State) : (s.setChan k c).setChan k d = s.setChan k d := by
  cases k <;> rfl

theorem State.setChan_chan (k : Chan) (s : State) : s.setChan k (s.chan k) = s := by cases k <;> rfl

/-- `FlowXoff`: the XOFF, or nothing. -/
theorem flowXoff_cases (k : Chan) (s : State) :
    let c := s.chan k
    (c.endpoint ≠ .null ∧ 1536 ≤ c.fifo.length ∧ c.xoffSent = false) ∧
      flowXoff k s = { s.setChan k { c with xoffSent := true, xoffSentCount := c.xoffSentCount + 1 } with
        trace := s.trace ++ [{ time := s.sched.now, event := .epXoff k }] } ∨
    ¬(c.endpoint ≠ .null ∧ 1536 ≤ c.fifo.length ∧ c.xoffSent = false) ∧ flowXoff k s = s := by
  dsimp only
  by_cases h : (s.chan k).endpoint ≠ .null ∧ Config.xoffThreshold ≤ (s.chan k).fifo.length ∧ (s.chan k).xoffSent = false
  · exact .inl ⟨h, by unfold flowXoff; dsimp only; rw [if_pos h]; rfl⟩
  · exact .inr ⟨h, by unfold flowXoff; dsimp only; rw [if_neg h]⟩

/-- `FlowXon`: the XON, or nothing. -/
theorem flowXon_cases (k : Chan) (s : State) :
    let c := s.chan k
    (c.endpoint ≠ .null ∧ c.fifo.length ≤ 512 ∧ c.xoffSent = true) ∧
      flowXon k s = { s.setChan k { c with xoffSent := false, xonSentCount := c.xonSentCount + 1 } with
        trace := s.trace ++ [{ time := s.sched.now, event := .epXon k }] } ∨
    ¬(c.endpoint ≠ .null ∧ c.fifo.length ≤ 512 ∧ c.xoffSent = true) ∧ flowXon k s = s := by
  dsimp only
  by_cases h : (s.chan k).endpoint ≠ .null ∧ (s.chan k).fifo.length ≤ Config.xonThreshold ∧ (s.chan k).xoffSent = true
  · exact .inl ⟨h, by unfold flowXon; dsimp only; rw [if_pos h]; rfl⟩
  · exact .inr ⟨h, by unfold flowXon; dsimp only; rw [if_neg h]⟩

/-- The XON of a pop is the one of Safety.lean. -/
theorem flowXon_controls (k : Chan) (s : State) : FlowControlledBy false k s (flowXon k s) := by
  unfold FlowControlledBy
  dsimp only
  rw [if_neg (by simp)]
  rcases flowXon_cases k s with ⟨h, e⟩ | ⟨h, e⟩
  · rw [if_pos h, e]
  · rw [if_neg h, e]

/-- The flow control of a push is the one of Safety.lean: after an XOFF the FIFO is too full for an XON. -/
theorem flow_controls (k : Chan) (s : State) : FlowControlledBy true k s (flowXon k (flowXoff k s)) := by
  unfold FlowControlledBy
  dsimp only
  rcases flowXoff_cases k s with ⟨h, e⟩ | ⟨h, e⟩
  · rw [if_pos ⟨rfl, h⟩, e]
    rcases flowXon_cases k (flowXoff k s) with ⟨h', _⟩ | ⟨_, e'⟩
    · rw [e] at h'
      have hc : ({ s.setChan k { s.chan k with xoffSent := true, xoffSentCount := (s.chan k).xoffSentCount + 1 } with
          trace := s.trace ++ [{ time := s.sched.now, event := .epXoff k }] } : State).chan k
          = { s.chan k with xoffSent := true, xoffSentCount := (s.chan k).xoffSentCount + 1 } := State.chan_setChan_self k _ s
      rw [hc] at h'
      have h1 := h'.2.1
      have h2 := h.2.1
      simp only at h1
      omega
    · rw [e] at e'; exact e'
  · rw [if_neg (by simpa using h), e]
    rcases flowXon_cases k s with ⟨h', e'⟩ | ⟨h', e'⟩
    · rw [if_pos h', e']
    · rw [if_neg h', e']

/-- `RxPop` on a non-empty FIFO. -/
theorem rxPop_cons {k : Chan} {s : State} {b : Byte} {rest : List Byte} (h : (s.chan k).fifo = b :: rest) :
    rxPop k s = (b, flowXon k (s.setChan k { s.chan k with fifo := rest })) := by
  simp [rxPop, h]

/-- `RxPop` on an empty FIFO. -/
theorem rxPop_nil {k : Chan} {s : State} (h : (s.chan k).fifo = []) : rxPop k s = (0x00#8, s) := by
  simp [rxPop, h]

theorem isFlowControl_iff (b : Byte) : isFlowControl b = true ↔ b = 0x11#8 ∨ b = 0x13#8 := by
  simp [isFlowControl, Config.xonByte, Config.xoffByte]

/-- The push of `enqueue_rx`. -/
theorem pushRx_eq (b : Byte) (c : Channel) :
    pushRx b c = if c.fifo.length = 2048 then { c with fifo := c.fifo.tail ++ [b], rxOverrunDrops := c.rxOverrunDrops + 1 }
      else { c with fifo := c.fifo ++ [b] } := by
  simp only [pushRx, Config.rxFifoMax, List.drop_one]

/-- A batch that fits. -/
theorem pushBatch_fits {data : List Byte} {c : Channel} (h : data.length ≤ 2048 - c.fifo.length) :
    pushBatch data c = { c with fifo := c.fifo ++ data } := by
  simp only [pushBatch, Config.rxFifoMax]
  exact if_pos h

/-- A batch that does not fit. -/
theorem pushBatch_overflows {data : List Byte} {c : Channel} (h : 2048 - c.fifo.length < data.length) :
    let free := 2048 - c.fifo.length
    let d := min (data.length - free) 1024
    pushBatch data c = { c with
      fifo := (c.fifo ++ data.take free).drop d ++ (data.drop free).take d
      rxOverrunDrops := c.rxOverrunDrops + (data.length - free) } := by
  simp only [pushBatch, Config.rxFifoMax]
  exact if_neg (by omega)

theorem rxHasByte_eq (s : State) (k : Chan) : s.rxHasByte k = decide ((s.chan k).fifo ≠ []) := by
  unfold State.rxHasByte
  cases (s.chan k).fifo <;> rfl

end Sys2Proof.Machine
end

