-- ==== Sys2Proof/Laws/Ports.lean ====
section
/-! SUPPORT. The ports: the bytes of the polled ones bit by bit, and what a port read or write can change. -/

namespace Sys2Proof.Machine

/-! ### Bytes -/

theorem bits_low4 (w x y z : Bool) :
    (bitAt 0 w ||| bitAt 1 x ||| bitAt 2 y ||| bitAt 3 z) =
      0#4 ++ BitVec.ofBool z ++ BitVec.ofBool y ++ BitVec.ofBool x ++ BitVec.ofBool w := by
  revert w x y z; decide

theorem bits_busStatus (o : BitVec 3) (a b c d e : Bool) :
    ((o.zeroExtend 8 <<< 5) ||| bitAt 4 a ||| bitAt 3 b ||| bitAt 2 c ||| bitAt 1 d ||| bitAt 0 e : Byte) =
      o ++ BitVec.ofBool a ++ BitVec.ofBool b ++ BitVec.ofBool c ++ BitVec.ofBool d ++ BitVec.ofBool e := by
  revert o a b c d e; decide

theorem bits_offset (o : BitVec 3) : (o.zeroExtend 8 <<< 5 : Byte) = o ++ 0#5 := by
  revert o; decide

theorem bits_uartStatus (a b c d : Bool) :
    (bitAt 7 a ||| bitAt 2 b ||| bitAt 1 c ||| bitAt 0 d : Byte) =
      BitVec.ofBool a ++ 0#4 ++ BitVec.ofBool b ++ BitVec.ofBool c ++ BitVec.ofBool d := by
  revert a b c d; decide

/-- A polled port answers its byte and changes nothing. -/
theorem portRead_polled {port v : Byte} {s : State} (h : polledValue port s = some v) : portRead port s = (v, s) := by
  unfold polledValue at h
  split_ifs at h with h0 h1 h2 h3 h4
  · subst h0; cases h; exact congrArg (·, s) (bits_low4 _ _ _ _)
  · subst h1; cases h; exact congrArg (·, s) (bits_busStatus _ _ _ _ _ _)
  · subst h2; cases h; exact congrArg (·, s) (bits_offset _)
  · subst h3; cases h; simp only [← rxHasByte_eq]; exact congrArg (·, s) (bits_low4 _ _ _ _)
  · subst h4; cases h; simp only [← rxHasByte_eq]; exact congrArg (·, s) (bits_uartStatus _ _ _ _)

theorem uartSelectOf_oneHot (v : Byte) (j : Chan) : v.toNat = 2 ^ j.toNat → uartSelectOf v = some j := by
  revert v; cases j <;> decide

theorem uartSelectOf_other : ∀ v : Byte, (∀ j : Chan, v.toNat ≠ 2 ^ j.toNat) → uartSelectOf v = none := by
  have key : ∀ v : Byte, v.toNat ≠ 2 ^ Chan.c0.toNat → v.toNat ≠ 2 ^ Chan.c1.toNat → v.toNat ≠ 2 ^ Chan.c2.toNat →
      v.toNat ≠ 2 ^ Chan.c3.toNat → uartSelectOf v = none := by decide
  exact fun v h => key v (h _) (h _) (h _) (h _)

/-! ### What a port operation can change -/

/-- The state after a port read: unchanged, the strobe bits cleared, a byte popped, or a fault and a draw. -/
theorem portRead_cases (p : Byte) (s : State) :
    (portRead p s).2 = s ∨
    (portRead p s).2 = { s with bus := { s.bus with obsSeen := false, cbsSeen := false } } ∨
    (∃ b rest, (s.chan s.uart.sel).fifo = b :: rest ∧
      (portRead p s).2 = flowXon s.uart.sel (s.setChan s.uart.sel { s.chan s.uart.sel with fifo := rest })) ∨
    (portRead p s).2 = { s with fault := some (s.fault.getD (.undefinedPortRead p)), draws := s.draws + 1 } := by
  unfold portRead
  cases inPortOf p with
  | none => exact .inr (.inr (.inr rfl))
  | some q =>
    cases q with
    | txPoll | busStatus | obOffset | rxPoll | uartStatus => exact .inl rfl
    | obData => exact .inr (.inl rfl)
    | uartData =>
      cases h : (s.chan s.uart.sel).fifo with
      | nil => exact .inl (congrArg Prod.snd (rxPop_nil h))
      | cons b rest => exact .inr (.inr (.inl ⟨b, rest, rfl, congrArg Prod.snd (rxPop_cons h)⟩))

/-- The state after a port write: bus latches, channel selection, an event or a fault; or a transmission started. -/
theorem portWrite_cases (p v : Byte) (s : State) :
    (∃ x, portWrite p v s = { s with fault := (s.fault <|> x) }) ∨
    (∃ prime rbi, portWrite p v s = { s with bus := { s.bus with primeSeen := prime, rbi := rbi } }) ∨
    (∃ j, portWrite p v s = { s with uart := { s.uart with sel := j } }) ∨
    (∃ prime ev, (∀ k, ev.sendsTo k = false ∧ ev ≠ .epXon k ∧ ev ≠ .epXoff k) ∧
      portWrite p v s = { s with
        bus := { s.bus with primeSeen := prime }, trace := s.trace ++ [{ time := s.sched.now, event := ev }] }) ∨
    ((s.chan s.uart.sel).txReady = true ∧
      portWrite p v s = { s.setChan s.uart.sel
          { s.chan s.uart.sel with txReady := false, txByte := v, txTimer := some s.sched.nextSeq } with
        sched := { s.sched with
          nextSeq := s.sched.nextSeq + 1
          timers := s.sched.timers ++
            [{ handle := s.sched.nextSeq, deadline := s.sched.now + 572917, seq := s.sched.nextSeq, chan := s.uart.sel }] } }) := by
  have hraise : ∀ f, s.raise f = { s with fault := (s.fault <|> some f) } := by
    intro f; cases h : s.fault <;> simp [State.raise, h]
  unfold portWrite
  cases outPortOf p with
  | none => exact .inl ⟨_, hraise _⟩
  | some q =>
    cases q with
    | clearPrime | rbi => exact .inr (.inl ⟨_, _, rfl⟩)
    | ib | ib9 | warmReset | haltCpu =>
      refine .inr (.inr (.inr (.inl ⟨_, _, ?_, rfl⟩)))
      exact fun _ => ⟨rfl, by simp, by simp⟩
    | uartSelect =>
      simp only [writeOutPort]
      cases uartSelectOf v with
      | some j => exact .inr (.inr (.inl ⟨j, rfl⟩))
      | none => exact .inl ⟨_, hraise _⟩
    | uartData =>
      simp only [writeOutPort]
      by_cases h : (s.chan s.uart.sel).txReady = true
      · rw [if_pos h]
        refine .inr (.inr (.inr (.inr ⟨h, ?_⟩)))
        generalize s.uart.sel = k
        cases k <;> rfl
      · rw [if_neg h]; exact .inl ⟨_, hraise _⟩
    | uartCommand => exact .inl ⟨none, by simp [writeOutPort]⟩

/-! ### What a port operation leaves alone -/

/-- The i8080, its memory, the configuration and the clock are unchanged. -/
structure CoreSame (s t : State) : Prop where
  regs : RegsSameBut [] s t
  flags : t.flags = s.flags
  sp : t.sp = s.sp
  pc : t.pc = s.pc
  inte : t.inte = s.inte
  eiShadow : t.eiShadow = s.eiShadow
  halted : t.halted = s.halted
  intReq : t.intReq = s.intReq
  intVec : t.intVec = s.intVec
  cyc : t.cyc = s.cyc
  ram : t.ram = s.ram
  rom : t.rom = s.rom
  cfg : t.cfg = s.cfg
  now : t.sched.now = s.sched.now
  opCycles : t.opCycles = s.opCycles

theorem CoreSame.peek {s t : State} (h : CoreSame s t) (a : Word) : t.peek a = s.peek a := by
  unfold State.peek
  rw [h.ram, h.rom]

/-- The shape of such a change: the fault record, the draws, and the card but for its clock and configuration. -/
theorem CoreSame.intro {s t : State} (h : ∃ fault bus uart timers nextSeq trace draws, t = { s with
    fault := fault, bus := bus, uart := uart, sched := { now := s.sched.now, timers := timers, nextSeq := nextSeq }
    trace := trace, draws := draws }) : CoreSame s t := by
  obtain ⟨fault, bus, uart, timers, nextSeq, trace, draws, rfl⟩ := h
  exact ⟨fun r _ => by cases r <;> rfl, rfl, rfl, rfl, rfl, rfl, rfl, rfl, rfl, rfl, rfl, rfl, rfl, rfl, rfl⟩

theorem CoreSame.trans {s t u : State} (h : CoreSame s t) (k : CoreSame t u) : CoreSame s u :=
  ⟨fun r hr => (k.regs r hr).trans (h.regs r hr), k.flags.trans h.flags, k.sp.trans h.sp, k.pc.trans h.pc, k.inte.trans h.inte,
    k.eiShadow.trans h.eiShadow, k.halted.trans h.halted, k.intReq.trans h.intReq, k.intVec.trans h.intVec, k.cyc.trans h.cyc,
    k.ram.trans h.ram, k.rom.trans h.rom, k.cfg.trans h.cfg, k.now.trans h.now, k.opCycles.trans h.opCycles⟩

theorem flowXon_coreSame (k : Chan) (s : State) : CoreSame s (flowXon k s) := by
  rcases flowXon_cases k s with ⟨_, e⟩ | ⟨_, e⟩ <;> rw [e] <;> exact .intro ⟨_, _, _, _, _, _, _, rfl⟩

theorem flowXoff_coreSame (k : Chan) (s : State) : CoreSame s (flowXoff k s) := by
  rcases flowXoff_cases k s with ⟨_, e⟩ | ⟨_, e⟩ <;> rw [e] <;> exact .intro ⟨_, _, _, _, _, _, _, rfl⟩

theorem setChan_coreSame (k : Chan) (c : Channel) (s : State) : CoreSame s (s.setChan k c) := .intro ⟨_, _, _, _, _, _, _, rfl⟩

theorem portRead_coreSame (p : Byte) (s : State) : CoreSame s (portRead p s).2 := by
  rcases portRead_cases p s with e | e | ⟨b, rest, _, e⟩ | e <;> rw [e]
  · exact .intro ⟨_, _, _, _, _, _, _, rfl⟩
  · exact .intro ⟨_, _, _, _, _, _, _, rfl⟩
  · exact (setChan_coreSame _ _ s).trans (flowXon_coreSame _ _)
  · exact .intro ⟨_, _, _, _, _, _, _, rfl⟩

theorem portWrite_coreSame (p v : Byte) (s : State) : CoreSame s (portWrite p v s) := by
  rcases portWrite_cases p v s with ⟨_, e⟩ | ⟨_, _, e⟩ | ⟨_, e⟩ | ⟨_, _, _, e⟩ | ⟨_, e⟩ <;> rw [e] <;>
    exact .intro ⟨_, _, _, _, _, _, _, rfl⟩

end Sys2Proof.Machine
end

