-- ==== Sys2Proof/Laws/Environment.lean ====
section
/-! SUPPORT. What an operation of the environment can change. -/

namespace Sys2Proof.Machine

/-- The push of `enqueue_rx` keeps the bound of the FIFO and changes the FIFO and its drop counter only. -/
theorem pushRx_bound (b : Byte) {c : Channel} (h : c.fifo.length ≤ 2048) :
    ∃ q n, pushRx b c = { c with fifo := q, rxOverrunDrops := n } ∧ q.length ≤ 2048 ∧ c.fifo.length ≤ q.length := by
  rw [pushRx_eq]
  split_ifs with hf
  · exact ⟨_, _, rfl, by simp; omega, by simp; omega⟩
  · exact ⟨_, _, rfl, by simp; omega, by simp⟩

/-- So does the push of a batch. -/
theorem pushBatch_bound (data : List Byte) {c : Channel} (h : c.fifo.length ≤ 2048) :
    ∃ q n, pushBatch data c = { c with fifo := q, rxOverrunDrops := n } ∧ q.length ≤ 2048 ∧ c.fifo.length ≤ q.length := by
  by_cases hd : data.length ≤ 2048 - c.fifo.length
  · rw [pushBatch_fits hd]
    exact ⟨_, _, rfl, by simp; omega, by simp⟩
  · rw [pushBatch_overflows (by omega)]
    exact ⟨_, _, rfl, by simp; omega, by simp; omega⟩

/-- The state after an operation of the environment: unchanged, a fault recorded, the latches of the bus changed with at most one
strobe bit more than before, bytes received, or a channel bound anew. -/
theorem envStep_cases {op : EnvOp} {s t : State} (h : envStep op s = .next t) :
    t = s ∨
    t = { s with fault := some (s.fault.getD .doubleStrobe) } ∨
    (∃ bus, t = { s with bus := bus } ∧
      (bus.obsSeen = s.bus.obsSeen ∧ bus.cbsSeen = s.bus.cbsSeen ∨ bus.obsSeen = !bus.cbsSeen)) ∨
    (∃ k c, t = flowXon k (flowXoff k (s.setChan k c)) ∧
      ((s.chan k).fifo.length ≤ 2048 →
        ∃ q n, c = { s.chan k with fifo := q, rxOverrunDrops := n } ∧ q.length ≤ 2048 ∧ (s.chan k).fifo.length ≤ q.length) ∧
      ∃ q n, c = { s.chan k with fifo := q, rxOverrunDrops := n }) ∨
    (∃ k ep, op.rebinds k = true ∧ t = s.setChan k { s.chan k with endpoint := ep, xoffSent := false } ∧
      (ep = .null ∨ k.toNat < s.cfg.numTerms.toNat)) := by
  have strobe : ∀ (obs : Bool) (v : Byte), t = hostStrobe obs v s →
      t = s ∨ t = { s with fault := some (s.fault.getD .doubleStrobe) } ∨
      ∃ bus, t = { s with bus := bus } ∧
        (bus.obsSeen = s.bus.obsSeen ∧ bus.cbsSeen = s.bus.cbsSeen ∨ bus.obsSeen = !bus.cbsSeen) := by
    rintro obs v rfl
    unfold hostStrobe
    split_ifs
    · exact .inl rfl
    · exact .inr (.inl rfl)
    · exact .inr (.inr ⟨_, rfl, .inr (by simp)⟩)
  have rx : ∀ (k : Chan) (b : Byte), enqueueRx k b s = s ∨
      ∃ c, enqueueRx k b s = flowXon k (flowXoff k (s.setChan k c)) ∧
        ((s.chan k).fifo.length ≤ 2048 →
          ∃ q n, c = { s.chan k with fifo := q, rxOverrunDrops := n } ∧ q.length ≤ 2048 ∧ (s.chan k).fifo.length ≤ q.length) ∧
        ∃ q n, c = { s.chan k with fifo := q, rxOverrunDrops := n } := by
    intro k b
    unfold enqueueRx
    split_ifs
    · exact .inl rfl
    · refine .inr ⟨_, rfl, pushRx_bound b, ?_⟩
      rw [pushRx_eq]
      split_ifs <;> exact ⟨_, _, rfl⟩
  have rx' : ∀ (k : Chan) (b : Byte), t = enqueueRx k b s → t = s ∨
      ∃ k c, t = flowXon k (flowXoff k (s.setChan k c)) ∧
        ((s.chan k).fifo.length ≤ 2048 →
          ∃ q n, c = { s.chan k with fifo := q, rxOverrunDrops := n } ∧ q.length ≤ 2048 ∧ (s.chan k).fifo.length ≤ q.length) ∧
        ∃ q n, c = { s.chan k with fifo := q, rxOverrunDrops := n } := by
    intro k b e
    rcases rx k b with e' | ⟨c, e', hc⟩
    · exact .inl (e.trans e')
    · exact .inr ⟨k, c, e.trans e', hc⟩
  have attach : ∀ (k : Chan) (ep : Endpoint), attachEndpoint k ep s = .next t →
      t = s.setChan k { s.chan k with endpoint := ep, xoffSent := false } ∧ k.toNat < s.cfg.numTerms.toNat := by
    intro k ep e
    unfold attachEndpoint at e
    split_ifs at e with hk
    · cases e; exact ⟨rfl, hk⟩
  cases op with
  | select addr => cases h; exact .inr (.inr (.inl ⟨_, rfl, .inl ⟨rfl, rfl⟩⟩))
  | deselect => cases h; exact .inr (.inr (.inl ⟨_, rfl, .inl ⟨rfl, rfl⟩⟩))
  | setCpuBusy flag => cases h; exact .inr (.inr (.inl ⟨_, rfl, .inl ⟨rfl, rfl⟩⟩))
  | cardReset hard => cases h; exact .inr (.inr (.inl ⟨_, rfl, .inl ⟨rfl, rfl⟩⟩))
  | strobeObs v =>
    cases h
    rcases strobe true v rfl with e | e | e
    · exact .inl e
    · exact .inr (.inl e)
    · exact .inr (.inr (.inl e))
  | strobeCbs v =>
    cases h
    rcases strobe false v rfl with e | e | e
    · exact .inl e
    · exact .inr (.inl e)
    · exact .inr (.inr (.inl e))
  | enqueueRx k b | serialRxByte k b =>
    cases h
    rcases rx' k b rfl with e | e
    · exact .inl e
    · exact .inr (.inr (.inr (.inl e)))
  | enqueueRxBatch k bytes =>
    cases h
    refine .inr (.inr (.inr (.inl ⟨k, _, rfl, pushBatch_bound _, ?_⟩)))
    unfold pushBatch
    dsimp only
    split_ifs <;> exact ⟨_, _, rfl⟩
  | receiveKeystroke k code =>
    have e : t = receiveKeystroke k code s := by cases h; rfl
    unfold receiveKeystroke at e
    split_ifs at e
    · exact .inl e
    · rcases rx' k _ e with e | e
      · exact .inl e
      · exact .inr (.inr (.inr (.inl e)))
  | attachSerial k =>
    obtain ⟨e, hk⟩ := attach k .serial h
    exact .inr (.inr (.inr (.inr ⟨k, _, by simp [EnvOp.rebinds], e, .inr hk⟩)))
  | attachSession k =>
    obtain ⟨e, hk⟩ := attach k .session h
    exact .inr (.inr (.inr (.inr ⟨k, _, by simp [EnvOp.rebinds], e, .inr hk⟩)))
  | detach k =>
    cases h
    exact .inr (.inr (.inr (.inr ⟨k, .null, by simp [EnvOp.rebinds], rfl, .inl rfl⟩)))

/-- The environment leaves the i8080, memory, configuration and clock alone. -/
theorem envStep_coreSame {op : EnvOp} {s t : State} (h : envStep op s = .next t) : CoreSame s t := by
  rcases envStep_cases h with rfl | rfl | ⟨_, rfl, _⟩ | ⟨k, c, rfl, _⟩ | ⟨k, ep, _, rfl, _⟩
  · exact .intro ⟨_, _, _, _, _, _, _, rfl⟩
  · exact .intro ⟨_, _, _, _, _, _, _, rfl⟩
  · exact .intro ⟨_, _, _, _, _, _, _, rfl⟩
  · exact ((setChan_coreSame k c s).trans (flowXoff_coreSame k _)).trans (flowXon_coreSame k _)
  · exact setChan_coreSame _ _ _

end Sys2Proof.Machine
end

