-- ==== Sys2Proof/Laws/Flags.lean ====
section
/-! SUPPORT. What each flag computation gives, once per computation: the flag laws of 41_arithmetic.md R140 and the bits of the
flag byte. -/

namespace Sys2Proof.Machine

/-! ### Nibbles and bits of a byte -/

theorem lowNibble_eq (v : Byte) : lowNibble v = v.toNat % 16 := by
  have : ∀ v : Byte, lowNibble v = v.toNat % 16 := by decide
  exact this v

theorem highNibble_eq (v : Byte) : highNibble v = v.toNat / 16 := by
  have : ∀ v : Byte, highNibble v = v.toNat / 16 := by decide
  exact this v

theorem lowNibble_not (v : Byte) : lowNibble (~~~v) = 15 - v.toNat % 16 := by
  have : ∀ v : Byte, lowNibble (~~~v) = 15 - v.toNat % 16 := by decide
  exact this v

theorem countOnes_even (v : Byte) : (countOnes v % 2 == 0) = !(v.getLsbD 0 ^^ v.getLsbD 1 ^^ v.getLsbD 2 ^^ v.getLsbD 3 ^^
    v.getLsbD 4 ^^ v.getLsbD 5 ^^ v.getLsbD 6 ^^ v.getLsbD 7) := by
  have : ∀ v : Byte, (countOnes v % 2 == 0) = !(v.getLsbD 0 ^^ v.getLsbD 1 ^^ v.getLsbD 2 ^^ v.getLsbD 3 ^^
    v.getLsbD 4 ^^ v.getLsbD 5 ^^ v.getLsbD 6 ^^ v.getLsbD 7) := by decide
  exact this v

theorem getLsbD_seven (v : Byte) : v.getLsbD 7 = decide (128 ≤ v.toNat) := by
  have : ∀ v : Byte, v.getLsbD 7 = decide (128 ≤ v.toNat) := by decide
  exact this v

/-! ### S, Z and P -/

@[simp] theorem szp_auxCarry (v : Byte) (f : Flags) : (szp v f).auxCarry = f.auxCarry := rfl
@[simp] theorem szp_carry (v : Byte) (f : Flags) : (szp v f).carry = f.carry := rfl

theorem showsSzp_szp (v : Byte) (f : Flags) : ShowsSzp v (szp v f) := by
  refine ⟨getLsbD_seven v, ?_, countOnes_even v⟩
  have : ∀ v : Byte, (v == 0#8) = decide (v.toNat = 0) := by decide
  exact this v

/-! ### Eight-bit arithmetic -/

theorem add8_addsTo (a b : Byte) (c : Bool) (f : Flags) : AddsTo a b c (add8 a b c f).1 (add8 a b c f).2 := by
  refine ⟨?_, ?_, showsSzp_szp _ _⟩
  · show (BitVec.ofNat 8 (a.toNat + b.toNat + c.toNat)).toNat + 256 * (decide (0xFF < a.toNat + b.toNat + c.toNat)).toNat = _
    have := a.isLt; have := b.isLt; have := c.toNat_le
    rw [BitVec.toNat_ofNat]
    by_cases h : 0xFF < a.toNat + b.toNat + c.toNat <;> simp [h] <;> omega
  · simp only [add8, szp_auxCarry, lowNibble_eq]

theorem sub8_subtractsTo (a b : Byte) (c : Bool) (f : Flags) : SubtractsTo a b c (sub8 a b c f).1 (sub8 a b c f).2 := by
  have ha := a.isLt
  have hb := b.isLt
  have hc := c.toNat_le
  have hcarry : (sub8 a b c f).2.carry = decide (a.toNat < b.toNat + c.toNat) := by
    show decide ((a.toNat : Int) - b.toNat - c.toNat < 0) = _
    exact decide_eq_decide.2 (by omega)
  refine ⟨?_, hcarry, ?_, showsSzp_szp _ _⟩
  · rw [hcarry]
    show (BitVec.ofInt 8 ((a.toNat : Int) - b.toNat - c.toNat)).toNat + _ + _ = _
    rw [BitVec.toNat_ofInt]
    by_cases h : a.toNat < b.toNat + c.toNat <;> simp [h] <;> omega
  · simp only [sub8, szp_auxCarry, lowNibble_not]
    rw [lowNibble_eq]
    exact decide_eq_decide.2 (by omega)

theorem aluResult_does (op : AluOp) (a v : Byte) (f : Flags) :
    AluDoes op a v f.carry (aluResult op a v f).1 (aluResult op a v f).2 := by
  cases op with
  | add => exact add8_addsTo a v false f
  | adc => exact add8_addsTo a v f.carry f
  | sub => exact sub8_subtractsTo a v false f
  | sbb => exact sub8_subtractsTo a v f.carry f
  | ana => exact ⟨rfl, BitVec.getLsbD_or, rfl, showsSzp_szp _ _⟩
  | xra => exact ⟨rfl, rfl, rfl, showsSzp_szp _ _⟩
  | ora => exact ⟨rfl, rfl, rfl, showsSzp_szp _ _⟩
  | cmp => exact ⟨rfl, _, sub8_subtractsTo a v false f⟩

theorem inr8_spec (v : Byte) (f : Flags) :
    (inr8 v f).1.toNat = (v.toNat + 1) % 256 ∧ (inr8 v f).2.auxCarry = decide (v.toNat % 16 = 15) ∧
    ShowsSzp (inr8 v f).1 (inr8 v f).2 ∧ (inr8 v f).2.carry = f.carry := by
  refine ⟨BitVec.toNat_add v 1#8, ?_, showsSzp_szp _ _, rfl⟩
  have : ∀ v : Byte, (lowNibble (v + 1#8) == 0) = decide (v.toNat % 16 = 15) := by decide
  exact this v

theorem dcr8_spec (v : Byte) (f : Flags) :
    (dcr8 v f).1.toNat = (v.toNat + 255) % 256 ∧ (dcr8 v f).2.auxCarry = decide (v.toNat % 16 ≠ 0) ∧
    ShowsSzp (dcr8 v f).1 (dcr8 v f).2 ∧ (dcr8 v f).2.carry = f.carry := by
  refine ⟨?_, ?_, showsSzp_szp _ _, rfl⟩
  · have : ∀ v : Byte, (v - 1#8).toNat = (v.toNat + 255) % 256 := by decide
    exact this v
  · have : ∀ v : Byte, (!(lowNibble (v - 1#8) == 15)) = decide (v.toNat % 16 ≠ 0) := by decide
    exact this v

/-! ### Sixteen-bit addition, decimal adjust -/

theorem add16_spec (x y : Word) (f : Flags) :
    (add16 x y f).1.toNat + 65536 * (add16 x y f).2.carry.toNat = x.toNat + y.toNat ∧
    (add16 x y f).2 = { f with carry := (add16 x y f).2.carry } := by
  refine ⟨?_, rfl⟩
  show (BitVec.ofNat 16 (x.toNat + y.toNat)).toNat + 65536 * (decide (0xFFFF < x.toNat + y.toNat)).toNat = _
  have := x.isLt; have := y.isLt
  rw [BitVec.toNat_ofNat]
  by_cases h : 0xFFFF < x.toNat + y.toNat <;> simp [h] <;> omega

/-- The correction DAA adds (41_arithmetic.md R160). -/
def daaCorrection (a : Byte) (f : Flags) : Nat :=
  (if f.auxCarry = true ∨ 9 < a.toNat % 16 then 6 else 0) +
  (if f.carry = true ∨ 9 < a.toNat / 16 ∨ (9 ≤ a.toNat / 16 ∧ 9 < a.toNat % 16) then 96 else 0)

theorem decimalAdjust_spec (a : Byte) (f : Flags) :
    (decimalAdjust a f).1.toNat = (a.toNat + daaCorrection a f) % 256 ∧
    (decimalAdjust a f).2.auxCarry = decide (15 < a.toNat % 16 + daaCorrection a f % 16) ∧
    ((decimalAdjust a f).2.carry = true ↔
      f.carry = true ∨ 9 < a.toNat / 16 ∨ (9 ≤ a.toNat / 16 ∧ 9 < a.toNat % 16)) ∧
    ShowsSzp (decimalAdjust a f).1 (decimalAdjust a f).2 := by
  refine ⟨?_, ?_, ?_, showsSzp_szp _ _⟩
  · simp only [decimalAdjust, lowNibble_eq, highNibble_eq, BitVec.toNat_ofNat, daaCorrection, Bool.or_eq_true,
      Bool.and_eq_true, decide_eq_true_eq, or_assoc]
  · simp only [decimalAdjust, szp_auxCarry, lowNibble_eq, highNibble_eq, daaCorrection, Bool.or_eq_true,
      Bool.and_eq_true, decide_eq_true_eq, or_assoc]
    congr
  · simp only [decimalAdjust, szp_carry, lowNibble_eq, highNibble_eq, Bool.or_eq_true, Bool.and_eq_true, decide_eq_true_eq]
    tauto

/-! ### The flag byte, the conditions, the rotates -/

theorem flagByte_eq_flagBits (f : Flags) : flagByte f = flagBits f := by
  obtain ⟨s, z, a, p, c⟩ := f
  revert s z a p c
  decide

@[simp] theorem flagsOfByte_flagByte (f : Flags) : flagsOfByte (flagByte f) = f := by
  obtain ⟨s, z, a, p, c⟩ := f
  revert s z a p c
  decide

theorem condHolds_eq_condTrue (cond : Cond) (f : Flags) : condHolds cond f = condTrue cond f := by
  obtain ⟨s, z, a, p, c⟩ := f
  revert s z a p c
  cases cond <;> decide

theorem rotateLeft_bits (a : Byte) (cy : Bool) :
    ((a <<< 1) ||| bitAt 0 cy).getLsbD 0 = cy ∧ ∀ n, n < 7 → ((a <<< 1) ||| bitAt 0 cy).getLsbD (n + 1) = a.getLsbD n := by
  have : ∀ (a : Byte) (cy : Bool), ((a <<< 1) ||| bitAt 0 cy).getLsbD 0 = cy ∧
    ∀ n, n < 7 → ((a <<< 1) ||| bitAt 0 cy).getLsbD (n + 1) = a.getLsbD n := by decide
  exact this a cy

theorem rotateRight_bits (a : Byte) (cy : Bool) :
    ((a >>> 1) ||| bitAt 7 cy).getLsbD 7 = cy ∧ ∀ n, n < 7 → ((a >>> 1) ||| bitAt 7 cy).getLsbD n = a.getLsbD (n + 1) := by
  have : ∀ (a : Byte) (cy : Bool), ((a >>> 1) ||| bitAt 7 cy).getLsbD 7 = cy ∧
    ∀ n, n < 7 → ((a >>> 1) ||| bitAt 7 cy).getLsbD n = a.getLsbD (n + 1) := by decide
  exact this a cy

end Sys2Proof.Machine
end

