-- ==== Sys2Proof/Laws/Frames.lean ====
section
/-! SUPPORT. The frames of the shapes an instruction can have: registers only, reads, one store, two stores, a push, a pop. -/

namespace Sys2Proof.Machine

theorem controlSame_refl (s : State) : ControlSame s s := ⟨rfl, rfl, rfl, rfl, rfl, rfl⟩
theorem cardSame_refl (s : State) : CardSame s s := ⟨rfl, rfl, rfl, rfl, rfl⟩

/-- Reading the other registers of a register write. -/
theorem regsSameBut_setReg (r : Reg8) (v : Byte) (s : State) : RegsSameBut [r] s (s.setReg r v) := by
  intro q hq
  cases r <;> cases q <;> first | rfl | exact absurd (List.mem_singleton.2 rfl) hq

theorem pair_setPair_self (p : RegPair) (v : Word) (s : State) : (s.setPair p v).pair p = v := by
  cases p <;> simp [State.pair, State.setPair, State.bc, State.de, State.hl]

theorem pair_setPair_ne {p q : RegPair} (h : q ≠ p) (v : Word) (s : State) : (s.setPair p v).pair q = s.pair q := by
  cases p <;> cases q <;> first | rfl | exact absurd rfl h

/-- The frame of an instruction that writes general registers, flags, `SP` and `PC` after reads. -/
theorem instrFrame_reads (reads : List Word) {cycles : Nat} {s t : State}
    (h : ∃ a b c d e h l flags sp pc, t = { s with
      a := a, b := b, c := c, d := d, e := e, h := h, l := l, flags := flags, sp := sp, pc := pc
      fault := (s.fault <|> (readFaults reads).head?), draws := s.draws + (readFaults reads).length, opCycles := cycles }) :
    InstrFrame reads [] cycles s t := by
  obtain ⟨a, b, c, d, e, h, l, flags, sp, pc, rfl⟩ := h
  exact ⟨fun _ _ => rfl, ⟨by simp, rfl⟩, ⟨rfl, rfl, rfl, rfl, rfl, rfl⟩, ⟨rfl, rfl, rfl, rfl, rfl⟩, rfl⟩

/-- The frame of an instruction that writes general registers, flags, `SP` and `PC` only. -/
theorem instrFrame_registers {cycles : Nat} {s t : State}
    (h : ∃ a b c d e h l flags sp pc, t = { s with
      a := a, b := b, c := c, d := d, e := e, h := h, l := l, flags := flags, sp := sp, pc := pc, opCycles := cycles }) :
    InstrFrame [] [] cycles s t := by
  obtain ⟨a, b, c, d, e, h, l, flags, sp, pc, rfl⟩ := h
  exact ⟨fun _ _ => rfl, ⟨by simp, rfl⟩, ⟨rfl, rfl, rfl, rfl, rfl, rfl⟩, ⟨rfl, rfl, rfl, rfl, rfl⟩, rfl⟩

/-- One byte store: what it stores and its frame. -/
theorem memWrite_done (a : Word) (v : Byte) (cycles : Nat) (s : State) :
    let t := { memWrite a v s with opCycles := cycles }
    Stored a v s t ∧ RegsSameBut [] s t ∧ StackPcFlagsSame s t ∧ InstrFrame [] [a] cycles s t := by
  have h1 := stored_memWrite a v s
  have h2 : MemSameBut [a] s (memWrite a v s) := fun b hb => peek_memWrite_ne (by simpa using hb) v s
  have h3 : Recorded [] [a] s (memWrite a v s) :=
    ⟨by rw [memWrite_fault]; simp [writeFaults_cons_head?], by rw [memWrite_eq]; rfl⟩
  obtain ⟨f, m, e⟩ := memWrite_frame a v s
  rw [e] at h1 h2 h3 ⊢
  exact ⟨h1, fun r _ => by cases r <;> rfl, ⟨rfl, rfl, rfl⟩, h2, h3, ⟨rfl, rfl, rfl, rfl, rfl, rfl⟩, ⟨rfl, rfl, rfl, rfl, rfl⟩,
    rfl⟩

/-- Two byte stores at different addresses: what they store and their frame. -/
theorem memWrite_two_done {a b : Word} (hne : a ≠ b) (v w : Byte) (cycles : Nat) (s : State) :
    let t := { memWrite b w (memWrite a v s) with opCycles := cycles }
    Stored a v s t ∧ Stored b w s t ∧ RegsSameBut [] s t ∧ StackPcFlagsSame s t ∧ InstrFrame [] [a, b] cycles s t := by
  obtain ⟨h1, h2, h3, h4, f, m, e⟩ := memWrite_two hne v w s
  rw [e] at h1 h2 h3 h4
  simp only [e]
  exact ⟨h1, h2, fun r _ => by cases r <;> rfl, ⟨rfl, rfl, rfl⟩, h3, h4, ⟨rfl, rfl, rfl, rfl, rfl, rfl⟩,
    ⟨rfl, rfl, rfl, rfl, rfl⟩, rfl⟩

/-- A read-modify-write of the operand M (INR M, DCR M): the flags come from the byte read, also where the write faults. -/
theorem modifyM_done (f : Byte → Flags → Byte × Flags) (s : State) :
    let m := memRead s.hl s
    let v := f m.1 m.2.flags
    let w := f (readValue [] s.hl s) s.flags
    let t : State := { writeM v.1 { m.2 with flags := v.2 } with opCycles := 10 }
    Stored s.hl w.1 s t ∧ t.flags = w.2 ∧ RegsSameBut [] s t ∧ t.sp = s.sp ∧ t.pc = s.pc ∧ InstrFrame [s.hl] [s.hl] 10 s t := by
  simp only [memRead_eq]
  generalize f (readValue [] s.hl s) s.flags = v
  set u : State := { s with
    flags := v.2, fault := (s.fault <|> (readFaults [s.hl]).head?), draws := s.draws + (readFaults [s.hl]).length } with hu
  have h1 := stored_memWrite s.hl v.1 u
  have h2 : MemSameBut [s.hl] u (memWrite s.hl v.1 u) := fun b hb => peek_memWrite_ne (by simpa using hb) v.1 u
  have h3 := memWrite_fault s.hl v.1 u
  have h6 : writeM v.1 u = memWrite s.hl v.1 u := rfl
  obtain ⟨x, m, h5⟩ := memWrite_frame s.hl v.1 u
  rw [h6]
  rw [h5] at h1 h2 h3 ⊢
  refine ⟨h1, rfl, fun r _ => by cases r <;> rfl, rfl, rfl, h2, ⟨?_, rfl⟩, ⟨rfl, rfl, rfl, rfl, rfl, rfl⟩,
    ⟨rfl, rfl, rfl, rfl, rfl⟩, rfl⟩
  show x = _
  simp only at h3
  rw [h3, head?_append_orElse, ← orElse_assoc_fault]
  simp [writeFaults_cons_head?, hu]

/-- A push that then goes to `target`: what it stores and its frame. -/
theorem push16_done (v target : Word) (cycles : Nat) (s : State) :
    let t := { push16 v s with pc := target, opCycles := cycles }
    t.pc = target ∧ t.sp = s.sp - 2#16 ∧ Stored (s.sp - 1#16) (hiByte v) s t ∧ Stored (s.sp - 2#16) (loByte v) s t ∧
    RegsSameBut [] s t ∧ t.flags = s.flags ∧ InstrFrame [] [s.sp - 1#16, s.sp - 2#16] cycles s t := by
  obtain ⟨h1, h2, h3, h4, f, m, e⟩ := push16_spec v s
  rw [e] at h1 h2 h3 h4
  simp only [e]
  exact ⟨trivial, trivial, h1, h2, fun r _ => by cases r <;> rfl, trivial, h3, h4, ⟨rfl, rfl, rfl, rfl, rfl, rfl⟩,
    ⟨rfl, rfl, rfl, rfl, rfl⟩, rfl⟩

/-- Taking the interrupt with a restart vector latched (60_exceptions.md R405): what it stores and its frame. -/
theorem acceptInterrupt_restart {s : State} (hv : s.intVec &&& 0xC7#8 = 0xC7#8) :
    let u := acceptInterrupt s
    u.pc = BitVec.ofNat 16 (8 * (s.intVec.extractLsb' 3 3).toNat) ∧ u.sp = s.sp - 2#16 ∧
    Stored (s.sp - 1#16) (hiByte s.pc) s u ∧ Stored (s.sp - 2#16) (loByte s.pc) s u ∧
    RegsSameBut [] s u ∧ u.flags = s.flags ∧
    InstrFrame [] [s.sp - 1#16, s.sp - 2#16] 11 { s with inte := false, halted := false, eiShadow := false } u := by
  have e : acceptInterrupt s = { push16 s.pc { s with inte := false, halted := false, eiShadow := false } with
      pc := restartTarget (restartNumber s.intVec), opCycles := 11 } := by
    unfold acceptInterrupt; dsimp only
    rw [if_pos (by simp [isRestart, hv])]
  obtain ⟨h1, h2, h3, h4, h5, h6, h7⟩ := push16_done s.pc (restartTarget (restartNumber s.intVec)) 11
    { s with inte := false, halted := false, eiShadow := false }
  rw [e]
  refine ⟨h1.trans (restartTarget_eq _), h2, h3, h4, fun r hr => ?_, h6, h7⟩
  rw [h5 r hr]
  cases r <;> rfl

/-- Taking the interrupt with any other byte latched (60_exceptions.md R405). -/
theorem acceptInterrupt_unsupported {s : State} (hv : s.intVec &&& 0xC7#8 ≠ 0xC7#8) :
    acceptInterrupt s = { s with
      inte := false, halted := false, eiShadow := false, fault := some (s.fault.getD (.unsupportedVector s.intVec))
      opCycles := 11 } := by
  unfold acceptInterrupt; dsimp only
  rw [if_neg (by simp [isRestart, hv])]
  rfl

/-! ### The bytes each family may store to -/

theorem storeAddresses_movMR (src : Reg8) (s : State) : storeAddresses (.movMR src) s = [s.hl] := by cases src <;> rfl
theorem storeAddresses_mviM (imm : Byte) (s : State) : storeAddresses (.mviM imm) s = [s.hl] := rfl
theorem storeAddresses_inrM (s : State) : storeAddresses .inrM s = [s.hl] := rfl
theorem storeAddresses_dcrM (s : State) : storeAddresses .dcrM s = [s.hl] := rfl
theorem storeAddresses_sta (addr : Word) (s : State) : storeAddresses (.sta addr) s = [addr] := rfl
theorem storeAddresses_shld (addr : Word) (s : State) : storeAddresses (.shld addr) s = [addr, addr + 1#16] := rfl
theorem storeAddresses_stax (p : IndirectPair) (s : State) : storeAddresses (.stax p) s = [s.pair p.toPair] := by cases p <;> rfl
theorem storeAddresses_call (addr : Word) (s : State) : storeAddresses (.call addr) s = [s.sp - 1#16, s.sp - 2#16] := rfl
theorem storeAddresses_callCond (cond : Cond) (addr : Word) (s : State) :
    storeAddresses (.callCond cond addr) s = if condHolds cond s.flags then [s.sp - 1#16, s.sp - 2#16] else [] := by
  cases cond <;> rfl
theorem storeAddresses_rst (n : BitVec 3) (s : State) : storeAddresses (.rst n) s = [s.sp - 1#16, s.sp - 2#16] := by
  rcases bitVec3_cases n with rfl | rfl | rfl | rfl | rfl | rfl | rfl | rfl <;> rfl
theorem storeAddresses_push (p : StackPair) (s : State) : storeAddresses (.push p) s = [s.sp - 1#16, s.sp - 2#16] := by
  cases p <;> rfl
theorem storeAddresses_xthl (s : State) : storeAddresses .xthl s = [s.sp + 1#16, s.sp] := rfl

end Sys2Proof.Machine
end

