-- ==== Sys2Proof/Laws/PerInstr.lean ====
section
/-! SUPPORT. Statements about every instruction, one lemma per constructor of `Instr`. -/

namespace Sys2Proof.Laws

/-- The encoder writes as many bytes as 30_encoding.md R90 gives the opcode byte it writes. -/
def EncodedLength.Statement (i : Instr) : Prop :=
  wellFormedBytes (encode i) = true

theorem EncodedLength.movBB : EncodedLength.Statement .movBB := rfl
theorem EncodedLength.movBC : EncodedLength.Statement .movBC := rfl
theorem EncodedLength.movBD : EncodedLength.Statement .movBD := rfl
theorem EncodedLength.movBE : EncodedLength.Statement .movBE := rfl
theorem EncodedLength.movBH : EncodedLength.Statement .movBH := rfl
theorem EncodedLength.movBL : EncodedLength.Statement .movBL := rfl
theorem EncodedLength.movBA : EncodedLength.Statement .movBA := rfl
theorem EncodedLength.movCB : EncodedLength.Statement .movCB := rfl
theorem EncodedLength.movCC : EncodedLength.Statement .movCC := rfl
theorem EncodedLength.movCD : EncodedLength.Statement .movCD := rfl
theorem EncodedLength.movCE : EncodedLength.Statement .movCE := rfl
theorem EncodedLength.movCH : EncodedLength.Statement .movCH := rfl
theorem EncodedLength.movCL : EncodedLength.Statement .movCL := rfl
theorem EncodedLength.movCA : EncodedLength.Statement .movCA := rfl
theorem EncodedLength.movDB : EncodedLength.Statement .movDB := rfl
theorem EncodedLength.movDC : EncodedLength.Statement .movDC := rfl
theorem EncodedLength.movDD : EncodedLength.Statement .movDD := rfl
theorem EncodedLength.movDE : EncodedLength.Statement .movDE := rfl
theorem EncodedLength.movDH : EncodedLength.Statement .movDH := rfl
theorem EncodedLength.movDL : EncodedLength.Statement .movDL := rfl
theorem EncodedLength.movDA : EncodedLength.Statement .movDA := rfl
theorem EncodedLength.movEB : EncodedLength.Statement .movEB := rfl
theorem EncodedLength.movEC : EncodedLength.Statement .movEC := rfl
theorem EncodedLength.movED : EncodedLength.Statement .movED := rfl
theorem EncodedLength.movEE : EncodedLength.Statement .movEE := rfl
theorem EncodedLength.movEH : EncodedLength.Statement .movEH := rfl
theorem EncodedLength.movEL : EncodedLength.Statement .movEL := rfl
theorem EncodedLength.movEA : EncodedLength.Statement .movEA := rfl
theorem EncodedLength.movHB : EncodedLength.Statement .movHB := rfl
theorem EncodedLength.movHC : EncodedLength.Statement .movHC := rfl
theorem EncodedLength.movHD : EncodedLength.Statement .movHD := rfl
theorem EncodedLength.movHE : EncodedLength.Statement .movHE := rfl
theorem EncodedLength.movHH : EncodedLength.Statement .movHH := rfl
theorem EncodedLength.movHL : EncodedLength.Statement .movHL := rfl
theorem EncodedLength.movHA : EncodedLength.Statement .movHA := rfl
theorem EncodedLength.movLB : EncodedLength.Statement .movLB := rfl
theorem EncodedLength.movLC : EncodedLength.Statement .movLC := rfl
theorem EncodedLength.movLD : EncodedLength.Statement .movLD := rfl
theorem EncodedLength.movLE : EncodedLength.Statement .movLE := rfl
theorem EncodedLength.movLH : EncodedLength.Statement .movLH := rfl
theorem EncodedLength.movLL : EncodedLength.Statement .movLL := rfl
theorem EncodedLength.movLA : EncodedLength.Statement .movLA := rfl
theorem EncodedLength.movAB : EncodedLength.Statement .movAB := rfl
theorem EncodedLength.movAC : EncodedLength.Statement .movAC := rfl
theorem EncodedLength.movAD : EncodedLength.Statement .movAD := rfl
theorem EncodedLength.movAE : EncodedLength.Statement .movAE := rfl
theorem EncodedLength.movAH : EncodedLength.Statement .movAH := rfl
theorem EncodedLength.movAL : EncodedLength.Statement .movAL := rfl
theorem EncodedLength.movAA : EncodedLength.Statement .movAA := rfl
theorem EncodedLength.movBM : EncodedLength.Statement .movBM := rfl
theorem EncodedLength.movCM : EncodedLength.Statement .movCM := rfl
theorem EncodedLength.movDM : EncodedLength.Statement .movDM := rfl
theorem EncodedLength.movEM : EncodedLength.Statement .movEM := rfl
theorem EncodedLength.movHM : EncodedLength.Statement .movHM := rfl
theorem EncodedLength.movLM : EncodedLength.Statement .movLM := rfl
theorem EncodedLength.movAM : EncodedLength.Statement .movAM := rfl
theorem EncodedLength.movMB : EncodedLength.Statement .movMB := rfl
theorem EncodedLength.movMC : EncodedLength.Statement .movMC := rfl
theorem EncodedLength.movMD : EncodedLength.Statement .movMD := rfl
theorem EncodedLength.movME : EncodedLength.Statement .movME := rfl
theorem EncodedLength.movMH : EncodedLength.Statement .movMH := rfl
theorem EncodedLength.movML : EncodedLength.Statement .movML := rfl
theorem EncodedLength.movMA : EncodedLength.Statement .movMA := rfl
theorem EncodedLength.mviB (imm : Byte) : EncodedLength.Statement (.mviB imm) := rfl
theorem EncodedLength.mviC (imm : Byte) : EncodedLength.Statement (.mviC imm) := rfl
theorem EncodedLength.mviD (imm : Byte) : EncodedLength.Statement (.mviD imm) := rfl
theorem EncodedLength.mviE (imm : Byte) : EncodedLength.Statement (.mviE imm) := rfl
theorem EncodedLength.mviH (imm : Byte) : EncodedLength.Statement (.mviH imm) := rfl
theorem EncodedLength.mviL (imm : Byte) : EncodedLength.Statement (.mviL imm) := rfl
theorem EncodedLength.mviA (imm : Byte) : EncodedLength.Statement (.mviA imm) := rfl
theorem EncodedLength.mviM (imm : Byte) : EncodedLength.Statement (.mviM imm) := rfl
theorem EncodedLength.lxiB (imm : Word) : EncodedLength.Statement (.lxiB imm) := rfl
theorem EncodedLength.lxiD (imm : Word) : EncodedLength.Statement (.lxiD imm) := rfl
theorem EncodedLength.lxiH (imm : Word) : EncodedLength.Statement (.lxiH imm) := rfl
theorem EncodedLength.lxiSP (imm : Word) : EncodedLength.Statement (.lxiSP imm) := rfl
theorem EncodedLength.lda (addr : Word) : EncodedLength.Statement (.lda addr) := rfl
theorem EncodedLength.sta (addr : Word) : EncodedLength.Statement (.sta addr) := rfl
theorem EncodedLength.lhld (addr : Word) : EncodedLength.Statement (.lhld addr) := rfl
theorem EncodedLength.shld (addr : Word) : EncodedLength.Statement (.shld addr) := rfl
theorem EncodedLength.ldaxB : EncodedLength.Statement .ldaxB := rfl
theorem EncodedLength.ldaxD : EncodedLength.Statement .ldaxD := rfl
theorem EncodedLength.staxB : EncodedLength.Statement .staxB := rfl
theorem EncodedLength.staxD : EncodedLength.Statement .staxD := rfl
theorem EncodedLength.xchg : EncodedLength.Statement .xchg := rfl
theorem EncodedLength.addB : EncodedLength.Statement .addB := rfl
theorem EncodedLength.addC : EncodedLength.Statement .addC := rfl
theorem EncodedLength.addD : EncodedLength.Statement .addD := rfl
theorem EncodedLength.addE : EncodedLength.Statement .addE := rfl
theorem EncodedLength.addH : EncodedLength.Statement .addH := rfl
theorem EncodedLength.addL : EncodedLength.Statement .addL := rfl
theorem EncodedLength.addA : EncodedLength.Statement .addA := rfl
theorem EncodedLength.addM : EncodedLength.Statement .addM := rfl
theorem EncodedLength.adi (imm : Byte) : EncodedLength.Statement (.adi imm) := rfl
theorem EncodedLength.adcB : EncodedLength.Statement .adcB := rfl
theorem EncodedLength.adcC : EncodedLength.Statement .adcC := rfl
theorem EncodedLength.adcD : EncodedLength.Statement .adcD := rfl
theorem EncodedLength.adcE : EncodedLength.Statement .adcE := rfl
theorem EncodedLength.adcH : EncodedLength.Statement .adcH := rfl
theorem EncodedLength.adcL : EncodedLength.Statement .adcL := rfl
theorem EncodedLength.adcA : EncodedLength.Statement .adcA := rfl
theorem EncodedLength.adcM : EncodedLength.Statement .adcM := rfl
theorem EncodedLength.aci (imm : Byte) : EncodedLength.Statement (.aci imm) := rfl
theorem EncodedLength.subB : EncodedLength.Statement .subB := rfl
theorem EncodedLength.subC : EncodedLength.Statement .subC := rfl
theorem EncodedLength.subD : EncodedLength.Statement .subD := rfl
theorem EncodedLength.subE : EncodedLength.Statement .subE := rfl
theorem EncodedLength.subH : EncodedLength.Statement .subH := rfl
theorem EncodedLength.subL : EncodedLength.Statement .subL := rfl
theorem EncodedLength.subA : EncodedLength.Statement .subA := rfl
theorem EncodedLength.subM : EncodedLength.Statement .subM := rfl
theorem EncodedLength.sui (imm : Byte) : EncodedLength.Statement (.sui imm) := rfl
theorem EncodedLength.sbbB : EncodedLength.Statement .sbbB := rfl
theorem EncodedLength.sbbC : EncodedLength.Statement .sbbC := rfl
theorem EncodedLength.sbbD : EncodedLength.Statement .sbbD := rfl
theorem EncodedLength.sbbE : EncodedLength.Statement .sbbE := rfl
theorem EncodedLength.sbbH : EncodedLength.Statement .sbbH := rfl
theorem EncodedLength.sbbL : EncodedLength.Statement .sbbL := rfl
theorem EncodedLength.sbbA : EncodedLength.Statement .sbbA := rfl
theorem EncodedLength.sbbM : EncodedLength.Statement .sbbM := rfl
theorem EncodedLength.sbi (imm : Byte) : EncodedLength.Statement (.sbi imm) := rfl
theorem EncodedLength.inrB : EncodedLength.Statement .inrB := rfl
theorem EncodedLength.inrC : EncodedLength.Statement .inrC := rfl
theorem EncodedLength.inrD : EncodedLength.Statement .inrD := rfl
theorem EncodedLength.inrE : EncodedLength.Statement .inrE := rfl
theorem EncodedLength.inrH : EncodedLength.Statement .inrH := rfl
theorem EncodedLength.inrL : EncodedLength.Statement .inrL := rfl
theorem EncodedLength.inrA : EncodedLength.Statement .inrA := rfl
theorem EncodedLength.inrM : EncodedLength.Statement .inrM := rfl
theorem EncodedLength.dcrB : EncodedLength.Statement .dcrB := rfl
theorem EncodedLength.dcrC : EncodedLength.Statement .dcrC := rfl
theorem EncodedLength.dcrD : EncodedLength.Statement .dcrD := rfl
theorem EncodedLength.dcrE : EncodedLength.Statement .dcrE := rfl
theorem EncodedLength.dcrH : EncodedLength.Statement .dcrH := rfl
theorem EncodedLength.dcrL : EncodedLength.Statement .dcrL := rfl
theorem EncodedLength.dcrA : EncodedLength.Statement .dcrA := rfl
theorem EncodedLength.dcrM : EncodedLength.Statement .dcrM := rfl
theorem EncodedLength.inxB : EncodedLength.Statement .inxB := rfl
theorem EncodedLength.inxD : EncodedLength.Statement .inxD := rfl
theorem EncodedLength.inxH : EncodedLength.Statement .inxH := rfl
theorem EncodedLength.inxSP : EncodedLength.Statement .inxSP := rfl
theorem EncodedLength.dcxB : EncodedLength.Statement .dcxB := rfl
theorem EncodedLength.dcxD : EncodedLength.Statement .dcxD := rfl
theorem EncodedLength.dcxH : EncodedLength.Statement .dcxH := rfl
theorem EncodedLength.dcxSP : EncodedLength.Statement .dcxSP := rfl
theorem EncodedLength.dadB : EncodedLength.Statement .dadB := rfl
theorem EncodedLength.dadD : EncodedLength.Statement .dadD := rfl
theorem EncodedLength.dadH : EncodedLength.Statement .dadH := rfl
theorem EncodedLength.dadSP : EncodedLength.Statement .dadSP := rfl
theorem EncodedLength.daa : EncodedLength.Statement .daa := rfl
theorem EncodedLength.anaB : EncodedLength.Statement .anaB := rfl
theorem EncodedLength.anaC : EncodedLength.Statement .anaC := rfl
theorem EncodedLength.anaD : EncodedLength.Statement .anaD := rfl
theorem EncodedLength.anaE : EncodedLength.Statement .anaE := rfl
theorem EncodedLength.anaH : EncodedLength.Statement .anaH := rfl
theorem EncodedLength.anaL : EncodedLength.Statement .anaL := rfl
theorem EncodedLength.anaA : EncodedLength.Statement .anaA := rfl
theorem EncodedLength.anaM : EncodedLength.Statement .anaM := rfl
theorem EncodedLength.ani (imm : Byte) : EncodedLength.Statement (.ani imm) := rfl
theorem EncodedLength.xraB : EncodedLength.Statement .xraB := rfl
theorem EncodedLength.xraC : EncodedLength.Statement .xraC := rfl
theorem EncodedLength.xraD : EncodedLength.Statement .xraD := rfl
theorem EncodedLength.xraE : EncodedLength.Statement .xraE := rfl
theorem EncodedLength.xraH : EncodedLength.Statement .xraH := rfl
theorem EncodedLength.xraL : EncodedLength.Statement .xraL := rfl
theorem EncodedLength.xraA : EncodedLength.Statement .xraA := rfl
theorem EncodedLength.xraM : EncodedLength.Statement .xraM := rfl
theorem EncodedLength.xri (imm : Byte) : EncodedLength.Statement (.xri imm) := rfl
theorem EncodedLength.oraB : EncodedLength.Statement .oraB := rfl
theorem EncodedLength.oraC : EncodedLength.Statement .oraC := rfl
theorem EncodedLength.oraD : EncodedLength.Statement .oraD := rfl
theorem EncodedLength.oraE : EncodedLength.Statement .oraE := rfl
theorem EncodedLength.oraH : EncodedLength.Statement .oraH := rfl
theorem EncodedLength.oraL : EncodedLength.Statement .oraL := rfl
theorem EncodedLength.oraA : EncodedLength.Statement .oraA := rfl
theorem EncodedLength.oraM : EncodedLength.Statement .oraM := rfl
theorem EncodedLength.ori (imm : Byte) : EncodedLength.Statement (.ori imm) := rfl
theorem EncodedLength.cmpB : EncodedLength.Statement .cmpB := rfl
theorem EncodedLength.cmpC : EncodedLength.Statement .cmpC := rfl
theorem EncodedLength.cmpD : EncodedLength.Statement .cmpD := rfl
theorem EncodedLength.cmpE : EncodedLength.Statement .cmpE := rfl
theorem EncodedLength.cmpH : EncodedLength.Statement .cmpH := rfl
theorem EncodedLength.cmpL : EncodedLength.Statement .cmpL := rfl
theorem EncodedLength.cmpA : EncodedLength.Statement .cmpA := rfl
theorem EncodedLength.cmpM : EncodedLength.Statement .cmpM := rfl
theorem EncodedLength.cpi (imm : Byte) : EncodedLength.Statement (.cpi imm) := rfl
theorem EncodedLength.rlc : EncodedLength.Statement .rlc := rfl
theorem EncodedLength.rrc : EncodedLength.Statement .rrc := rfl
theorem EncodedLength.ral : EncodedLength.Statement .ral := rfl
theorem EncodedLength.rar : EncodedLength.Statement .rar := rfl
theorem EncodedLength.cma : EncodedLength.Statement .cma := rfl
theorem EncodedLength.cmc : EncodedLength.Statement .cmc := rfl
theorem EncodedLength.stc : EncodedLength.Statement .stc := rfl
theorem EncodedLength.jmp (addr : Word) : EncodedLength.Statement (.jmp addr) := rfl
theorem EncodedLength.jnz (addr : Word) : EncodedLength.Statement (.jnz addr) := rfl
theorem EncodedLength.jz (addr : Word) : EncodedLength.Statement (.jz addr) := rfl
theorem EncodedLength.jnc (addr : Word) : EncodedLength.Statement (.jnc addr) := rfl
theorem EncodedLength.jc (addr : Word) : EncodedLength.Statement (.jc addr) := rfl
theorem EncodedLength.jpo (addr : Word) : EncodedLength.Statement (.jpo addr) := rfl
theorem EncodedLength.jpe (addr : Word) : EncodedLength.Statement (.jpe addr) := rfl
theorem EncodedLength.jp (addr : Word) : EncodedLength.Statement (.jp addr) := rfl
theorem EncodedLength.jm (addr : Word) : EncodedLength.Statement (.jm addr) := rfl
theorem EncodedLength.call (addr : Word) : EncodedLength.Statement (.call addr) := rfl
theorem EncodedLength.cnz (addr : Word) : EncodedLength.Statement (.cnz addr) := rfl
theorem EncodedLength.cz (addr : Word) : EncodedLength.Statement (.cz addr) := rfl
theorem EncodedLength.cnc (addr : Word) : EncodedLength.Statement (.cnc addr) := rfl
theorem EncodedLength.cc (addr : Word) : EncodedLength.Statement (.cc addr) := rfl
theorem EncodedLength.cpo (addr : Word) : EncodedLength.Statement (.cpo addr) := rfl
theorem EncodedLength.cpe (addr : Word) : EncodedLength.Statement (.cpe addr) := rfl
theorem EncodedLength.cp (addr : Word) : EncodedLength.Statement (.cp addr) := rfl
theorem EncodedLength.cm (addr : Word) : EncodedLength.Statement (.cm addr) := rfl
theorem EncodedLength.ret : EncodedLength.Statement .ret := rfl
theorem EncodedLength.rnz : EncodedLength.Statement .rnz := rfl
theorem EncodedLength.rz : EncodedLength.Statement .rz := rfl
theorem EncodedLength.rnc : EncodedLength.Statement .rnc := rfl
theorem EncodedLength.rc : EncodedLength.Statement .rc := rfl
theorem EncodedLength.rpo : EncodedLength.Statement .rpo := rfl
theorem EncodedLength.rpe : EncodedLength.Statement .rpe := rfl
theorem EncodedLength.rp : EncodedLength.Statement .rp := rfl
theorem EncodedLength.rm : EncodedLength.Statement .rm := rfl
theorem EncodedLength.rst0 : EncodedLength.Statement .rst0 := rfl
theorem EncodedLength.rst1 : EncodedLength.Statement .rst1 := rfl
theorem EncodedLength.rst2 : EncodedLength.Statement .rst2 := rfl
theorem EncodedLength.rst3 : EncodedLength.Statement .rst3 := rfl
theorem EncodedLength.rst4 : EncodedLength.Statement .rst4 := rfl
theorem EncodedLength.rst5 : EncodedLength.Statement .rst5 := rfl
theorem EncodedLength.rst6 : EncodedLength.Statement .rst6 := rfl
theorem EncodedLength.rst7 : EncodedLength.Statement .rst7 := rfl
theorem EncodedLength.pchl : EncodedLength.Statement .pchl := rfl
theorem EncodedLength.pushB : EncodedLength.Statement .pushB := rfl
theorem EncodedLength.pushD : EncodedLength.Statement .pushD := rfl
theorem EncodedLength.pushH : EncodedLength.Statement .pushH := rfl
theorem EncodedLength.pushPSW : EncodedLength.Statement .pushPSW := rfl
theorem EncodedLength.popPSW : EncodedLength.Statement .popPSW := rfl
theorem EncodedLength.popB : EncodedLength.Statement .popB := rfl
theorem EncodedLength.popD : EncodedLength.Statement .popD := rfl
theorem EncodedLength.popH : EncodedLength.Statement .popH := rfl
theorem EncodedLength.xthl : EncodedLength.Statement .xthl := rfl
theorem EncodedLength.sphl : EncodedLength.Statement .sphl := rfl
theorem EncodedLength.inPort (port : Byte) : EncodedLength.Statement (.inPort port) := rfl
theorem EncodedLength.outPort (port : Byte) : EncodedLength.Statement (.outPort port) := rfl
theorem EncodedLength.ei : EncodedLength.Statement .ei := rfl
theorem EncodedLength.di : EncodedLength.Statement .di := rfl
theorem EncodedLength.hlt : EncodedLength.Statement .hlt := rfl
theorem EncodedLength.nop : EncodedLength.Statement .nop := rfl
theorem EncodedLength.illegal08 : EncodedLength.Statement .illegal08 := rfl
theorem EncodedLength.illegal10 : EncodedLength.Statement .illegal10 := rfl
theorem EncodedLength.illegal18 : EncodedLength.Statement .illegal18 := rfl
theorem EncodedLength.illegal20 : EncodedLength.Statement .illegal20 := rfl
theorem EncodedLength.illegal28 : EncodedLength.Statement .illegal28 := rfl
theorem EncodedLength.illegal30 : EncodedLength.Statement .illegal30 := rfl
theorem EncodedLength.illegal38 : EncodedLength.Statement .illegal38 := rfl
theorem EncodedLength.illegalCB : EncodedLength.Statement .illegalCB := rfl
theorem EncodedLength.illegalD9 : EncodedLength.Statement .illegalD9 := rfl
theorem EncodedLength.illegalDD : EncodedLength.Statement .illegalDD := rfl
theorem EncodedLength.illegalED : EncodedLength.Statement .illegalED := rfl
theorem EncodedLength.illegalFD : EncodedLength.Statement .illegalFD := rfl

end Sys2Proof.Laws
end

