-- ==== Sys2Proof/Laws/Scheduler.lean ====
section
/-! SUPPORT. The order of the timers and what firing the due ones does. -/

namespace Sys2Proof.Machine

/-! ### The timer that fires next -/

theorem earliest_eq_none {ts : List Timer} : earliest ts = none ↔ ts = [] := by
  cases ts with
  | nil => simp [earliest]
  | cons t rest =>
    simp only [earliest, reduceCtorEq, iff_false]
    cases earliest rest with
    | none => simp
    | some u => simp only; split_ifs <;> simp

theorem Timer.before_iff (t u : Timer) : t.before u = true ↔ t.deadline < u.deadline ∨ (t.deadline = u.deadline ∧ t.seq < u.seq) := by
  simp [Timer.before]

theorem earliest_mem {ts : List Timer} {x : Timer} (h : earliest ts = some x) : x ∈ ts := by
  induction ts generalizing x with
  | nil => simp [earliest] at h
  | cons t rest ih =>
    simp only [earliest] at h
    cases hr : earliest rest with
    | none => simp_all
    | some u =>
      simp only [hr] at h
      split_ifs at h
      · cases h; exact List.mem_cons_of_mem _ (ih hr)
      · cases h; exact List.mem_cons_self

/-- No timer stands before the earliest one. -/
theorem earliest_not_after {ts : List Timer} {x : Timer} (h : earliest ts = some x) : ∀ y ∈ ts, y.before x = false := by
  induction ts generalizing x with
  | nil => simp [earliest] at h
  | cons t rest ih =>
    simp only [earliest] at h
    intro y hy
    rw [Bool.eq_false_iff, ne_eq, Timer.before_iff]
    rcases List.mem_cons.1 hy with rfl | hy'
    · cases hr : earliest rest with
      | none => simp_all
      | some u =>
        simp only [hr] at h
        split_ifs at h with hb
        · cases h; rw [Timer.before_iff] at hb; omega
        · cases h; omega
    · cases hr : earliest rest with
      | none => rw [earliest_eq_none.1 hr] at hy'; simp at hy'
      | some u =>
        have hyu := ih hr y hy'
        rw [Bool.eq_false_iff, ne_eq, Timer.before_iff] at hyu
        simp only [hr] at h
        split_ifs at h with hb
        · cases h; exact hyu
        · cases h; rw [Timer.before_iff] at hb; omega

/-! ### One turn of the loop -/

theorem nextDue_eq_some {s : State} {x : Timer} (h : nextDue s = some x) : x ∈ s.sched.timers ∧ x.deadline ≤ s.sched.now := by
  simp only [nextDue, Option.filter_eq_some_iff, decide_eq_true_eq] at h
  exact ⟨earliest_mem h.1, h.2⟩

theorem nextDue_eq_none {s : State} : nextDue s = none ↔ ∀ y ∈ s.sched.timers, s.sched.now < y.deadline := by
  unfold nextDue
  cases h : earliest s.sched.timers with
  | none => simp [earliest_eq_none.1 h]
  | some x =>
    simp only [Option.filter_some, decide_eq_true_eq]
    constructor
    · intro hx y hy
      have hxy := earliest_not_after h y hy
      rw [Bool.eq_false_iff, ne_eq, Timer.before_iff] at hxy
      split_ifs at hx; omega
    · intro hall
      have := hall x (earliest_mem h)
      rw [if_neg (by omega)]

/-- The two things a fired timer can do: its channel becomes idle, with the byte delivered to the endpoint if there is one; or,
with an endpoint only, a new timer is started, due later, and nothing is delivered. -/
theorem fireTimer_cases (x : Timer) (s : State) :
    let c := s.chan x.chan
    (∃ draws sent, fireTimer x s = { s.setChan x.chan { c with txTimer := none, txReady := true } with
        draws := draws, trace := s.trace ++ sent, sched := { s.sched with timers := s.sched.timers.erase x } } ∧
      (c.endpoint = .null ∧ sent = [] ∨
        c.endpoint ≠ .null ∧ sent = [{ time := s.sched.now, event := .epSend x.chan c.txByte }])) ∨
    (c.endpoint ≠ .null ∧ ∃ draws d, 50000 ≤ d ∧ d ≤ 200000 ∧
      fireTimer x s = { s.setChan x.chan { c with txTimer := some s.sched.nextSeq } with
        draws := draws
        sched := { s.sched with
          nextSeq := s.sched.nextSeq + 1
          timers := s.sched.timers.erase x ++
            [{ handle := s.sched.nextSeq, deadline := s.sched.now + d, seq := s.sched.nextSeq, chan := x.chan }] } }) := by
  obtain ⟨handle, deadline, seq, k⟩ := x
  by_cases hn : (s.chan k).endpoint = .null
  · refine .inl ⟨s.draws, [], ?_, .inl ⟨hn, rfl⟩⟩
    cases k <;> simp_all [fireTimer, txTimerFire, txDeliver, State.setChan, State.chan]
  · by_cases hb : Config.freeBackpressure s.draws = true
    · have hd : (Config.freeRearm (s.draws + 1)).val < 150001 := (Config.freeRearm (s.draws + 1)).isLt
      refine .inr ⟨hn, s.draws + 2, 50000 + (Config.freeRearm (s.draws + 1)).val, by omega, by omega, ?_⟩
      cases k <;>
        simp_all [fireTimer, txTimerFire, txRearm, State.setChan, State.chan, drawBackpressure, drawRearmNs, createTimer,
          Config.rearmMinNs]
    · refine .inl ⟨s.draws + 1, _, ?_, .inr ⟨hn, rfl⟩⟩
      cases k <;>
        simp_all [fireTimer, txTimerFire, txDeliver, State.setChan, State.chan, State.emit, drawBackpressure]

/-! ### The loop -/

/-- What every turn keeps, the whole loop keeps. -/
theorem fireDue_induct {P : State → Prop} (hstep : ∀ s x, P s → nextDue s = some x → P (fireTimer x s)) {s : State} (h : P s) :
    P (fireDue s) := by
  unfold fireDue
  generalize s.sched.timers.length = n
  induction n generalizing s with
  | zero => exact h
  | succ n ih =>
    simp only [fireLoop]
    cases hd : nextDue s with
    | none => exact h
    | some x => exact ih (hstep s x h hd)

/-- The due timers. -/
def dueTimers (s : State) : List Timer := s.sched.timers.filter (fun y => decide (y.deadline ≤ s.sched.now))

theorem fireTimer_now (x : Timer) (s : State) : (fireTimer x s).sched.now = s.sched.now := by
  rcases fireTimer_cases x s with ⟨_, _, h, _⟩ | ⟨_, _, _, _, _, h⟩ <;> rw [h]

/-- The timers after a turn: the fired one is gone, and at most one that is not due has come. -/
theorem fireTimer_timers (x : Timer) (s : State) : ∃ new, (fireTimer x s).sched.timers = s.sched.timers.erase x ++ new ∧
    ∀ y ∈ new, s.sched.now < y.deadline := by
  rcases fireTimer_cases x s with ⟨_, _, h, _⟩ | ⟨_, _, d, hd, _, h⟩ <;> rw [h]
  · exact ⟨[], by simp⟩
  · exact ⟨_, rfl, fun y hy => by rw [List.mem_singleton.1 hy]; show s.sched.now < s.sched.now + d; omega⟩

theorem dueTimers_fireTimer {x : Timer} {s : State} (h : nextDue s = some x) :
    (dueTimers (fireTimer x s)).length + 1 = (dueTimers s).length := by
  obtain ⟨hx, hd⟩ := nextDue_eq_some h
  obtain ⟨new, hnew, hlate⟩ := fireTimer_timers x s
  unfold dueTimers
  rw [hnew, fireTimer_now, List.filter_append]
  have h1 : new.filter (fun y => decide (y.deadline ≤ s.sched.now)) = [] := by
    rw [List.filter_eq_nil_iff]
    intro y hy
    have := hlate y hy
    simp; omega
  rw [h1, List.append_nil, ← List.countP_eq_length_filter, ← List.countP_eq_length_filter]
  rw [List.countP_erase]
  have : 0 < List.countP (fun y => decide (y.deadline ≤ s.sched.now)) s.sched.timers :=
    List.countP_pos_iff.2 ⟨x, hx, by simpa using hd⟩
  simp only [hx, hd, decide_true, and_self, if_true]
  omega

/-- `FireDue` leaves no due timer. -/
theorem fireDue_none_due (s : State) : ∀ y ∈ (fireDue s).sched.timers, (fireDue s).sched.now < y.deadline := by
  have key : ∀ n s, (dueTimers s).length ≤ n → nextDue (fireLoop n s) = none := by
    intro n
    induction n with
    | zero =>
      intro s h
      rw [fireLoop, nextDue_eq_none]
      intro y hy
      have h0 : dueTimers s = [] := List.length_eq_zero_iff.1 (by omega)
      have := (List.filter_eq_nil_iff.1 h0) y hy
      simpa using this
    | succ n ih =>
      intro s h
      simp only [fireLoop]
      cases hd : nextDue s with
      | none => exact hd
      | some x =>
        have := dueTimers_fireTimer hd
        exact ih _ (by omega)
  exact nextDue_eq_none.1 (key _ s (List.length_filter_le _ _))

/-- `FireDue` does not move the clock. -/
theorem fireDue_now (s : State) : (fireDue s).sched.now = s.sched.now :=
  fireDue_induct (P := fun t => t.sched.now = s.sched.now) (fun t x h _ => (fireTimer_now x t).trans h) rfl

/-- `FireDue` touches no timer that is not due. -/
theorem fireDue_keeps (s : State) : ∀ y ∈ s.sched.timers, s.sched.now < y.deadline → y ∈ (fireDue s).sched.timers := by
  intro y hy hlt
  refine (fireDue_induct (P := fun t => y ∈ t.sched.timers ∧ t.sched.now < y.deadline) ?_ ⟨hy, hlt⟩).1
  intro t x ⟨h1, h2⟩ hx
  obtain ⟨new, hnew, _⟩ := fireTimer_timers x t
  refine ⟨?_, by rw [fireTimer_now]; exact h2⟩
  rw [hnew]
  refine List.mem_append_left _ ((List.mem_erase_of_ne ?_).2 h1)
  rintro rfl
  have := (nextDue_eq_some hx).2
  omega

/-- With no due timer, `FireDue` does nothing. -/
theorem fireDue_of_none_due {s : State} (h : ∀ y ∈ s.sched.timers, s.sched.now < y.deadline) : fireDue s = s := by
  unfold fireDue
  cases s.sched.timers.length with
  | zero => rfl
  | succ n => simp [fireLoop, nextDue_eq_none.2 h]

end Sys2Proof.Machine
end

