-- ==== Sys2Proof/Laws/Step.lean ====
section
/-! SUPPORT. The step taken apart: fetch, the three cases of `ExecOneOp`, the bill, the due timers. -/

namespace Sys2Proof.Machine

/-! ### Fetch -/

/-- A fetch is a core update. -/
theorem CoreUpdate.fetchInstr (s : State) : CoreUpdate s (fetchInstr s).2 := by
  unfold Machine.fetchInstr
  dsimp only
  split
  · exact CoreUpdate.fetchByte s
  · exact (CoreUpdate.fetchByte s).trans (CoreUpdate.fetchByte _)
  · exact ((CoreUpdate.fetchByte s).trans (CoreUpdate.fetchByte _)).trans (CoreUpdate.fetchByte _)

/-- The fetch of one byte at a moved `PC`. -/
theorem fetchByte_at {s : State} {p : Word} {v : Byte} (h : s.peek p = some v) :
    fetchByte { s with pc := p } = (v, { s with pc := p + 1#16 }) :=
  fetchByte_of_peek (s := { s with pc := p }) h

/-- Where the bytes from `PC` on are those of one instruction, the fetch yields it and moves `PC` past it. -/
theorem fetchInstr_of_bytes {s : State} {bytes : List Byte} {i : Instr}
    (hb : ∀ j, j < bytes.length → s.peek (s.pc + BitVec.ofNat 16 j) = bytes[j]?) (hd : decode bytes = .ok (i, [])) :
    fetchInstr s = (i, { s with pc := s.pc + BitVec.ofNat 16 bytes.length }) := by
  have a2 : s.pc + 1#16 + 1#16 = s.pc + 2#16 := by bv_omega
  have a3 : s.pc + 2#16 + 1#16 = s.pc + 3#16 := by bv_omega
  match bytes, hb, hd with
  | [], _, hd => simp [decode] at hd
  | op :: rest, hb, hd =>
    have h0 : s.peek s.pc = some op := by simpa using hb 0 (by simp)
    have f0 : fetchByte s = (op, { s with pc := s.pc + 1#16 }) := fetchByte_of_peek h0
    cases ht : templateOf op with
    | fixed j =>
      rw [decode_fixed ht] at hd
      cases hd
      simp only [fetchInstr, f0, ht]
      rfl
    | imm8 mk =>
      match rest, hb, hd with
      | [], _, hd => rw [decode_imm8_short ht] at hd; simp at hd
      | b :: rest, hb, hd =>
        rw [decode_imm8 ht] at hd
        cases hd
        have h1 : s.peek (s.pc + 1#16) = some b := by simpa using hb 1 (by simp)
        simp only [fetchInstr, f0, ht, fetchByte_at h1, a2]
        rfl
    | imm16 mk =>
      match rest, hb, hd with
      | [], _, hd => rw [decode_imm16_short ht (by simp)] at hd; simp at hd
      | [_], _, hd => rw [decode_imm16_short ht (by simp)] at hd; simp at hd
      | lo :: hi :: rest, hb, hd =>
        rw [decode_imm16 ht] at hd
        cases hd
        have h1 : s.peek (s.pc + 1#16) = some lo := by simpa using hb 1 (by simp)
        have h2 : s.peek (s.pc + 2#16) = some hi := by simpa using hb 2 (by simp)
        simp only [fetchInstr, f0, ht, fetchByte_at h1, a2, fetchByte_at h2, a3]
        rfl

/-! ### The three cases of `ExecOneOp` -/

theorem execOneOp_accepts {s : State} (h : acceptsRequest s = true) :
    execOneOp s = .next (acceptInterrupt { s with intReq := false }) := by
  unfold execOneOp; dsimp only; rw [if_pos h]

theorem execOneOp_halted {s : State} (h : acceptsRequest s = false) (hh : s.halted = true) :
    execOneOp s = .next (idleStep { s with intReq := false }) := by
  unfold execOneOp; dsimp only; rw [if_neg (by simp [h]), if_pos hh]

theorem execOneOp_runs {s : State} (h : acceptsRequest s = false) (hh : s.halted = false) :
    execOneOp s = fetchExecute { s with intReq := false } := by
  unfold execOneOp; dsimp only; rw [if_neg (by simp [h]), if_neg (by simp [hh])]

/-- `FetchExecute` by the outcome of the instruction. -/
theorem fetchExecute_eq {s t : State} (h : exec (fetchInstr s).1 (fetchInstr s).2 = .next t) :
    fetchExecute s = .next (clearShadow (fetchInstr s).1 t) := by
  unfold fetchExecute; dsimp only; rw [h]

theorem clearShadow_eq (i : Instr) (t : State) : clearShadow i t = { t with eiShadow := t.eiShadow && decide (i = .ei) } := by
  unfold clearShadow
  split_ifs with h
  · simp [h]
  · simp [h]

/-! ### The step -/

theorem acceptsRequest_deliver (s : State) :
    acceptsRequest (deliverInterrupt s) = ((s.interruptPending || s.intReq) && s.inte && !s.eiShadow) := by
  unfold deliverInterrupt acceptsRequest raiseInterrupt
  split_ifs with h
  · simp [h]
  · simp [Bool.eq_false_iff.2 h]

/-- Delivery drops nothing but the request latch: what `ExecOneOp` goes on with. -/
theorem deliver_drop (s : State) : ({ deliverInterrupt s with intReq := false } : State) =
    { s with intReq := false, intVec := if s.interruptPending then 0xFF#8 else s.intVec } := by
  unfold deliverInterrupt raiseInterrupt
  split_ifs <;> rfl

theorem step_of_execOneOp {s u : State} (h : execOneOp (deliverInterrupt s) = .next u) :
    step s = .next (fireDue (billStep u)) := by
  unfold step driverIteration
  rw [h]

/-- What one step is: an acceptance, an idle step, or an instruction, then the bill and the due timers. -/
theorem step_cases (s : State) :
    let s1 := { s with intReq := false, intVec := if s.interruptPending then 0xFF#8 else s.intVec }
    let accepts := (s.interruptPending || s.intReq) && s.inte && !s.eiShadow
    (accepts = true ∧ step s = .next (fireDue (billStep (acceptInterrupt s1)))) ∨
    (accepts = false ∧ s.halted = true ∧ step s = .next (fireDue (billStep (idleStep s1)))) ∨
    (accepts = false ∧ s.halted = false ∧ ∃ t, exec (fetchInstr s1).1 (fetchInstr s1).2 = .next t ∧
      step s = .next (fireDue (billStep (clearShadow (fetchInstr s1).1 t)))) := by
  dsimp only
  rw [← acceptsRequest_deliver, ← deliver_drop]
  have hhalt : (deliverInterrupt s).halted = s.halted := by
    unfold deliverInterrupt raiseInterrupt; split_ifs <;> rfl
  cases ha : acceptsRequest (deliverInterrupt s) with
  | true => exact .inl ⟨rfl, step_of_execOneOp (execOneOp_accepts ha)⟩
  | false =>
    cases hh : s.halted with
    | true => exact .inr (.inl ⟨rfl, rfl, step_of_execOneOp (execOneOp_halted ha (hhalt.trans hh))⟩)
    | false =>
      obtain ⟨t, ht, _⟩ := exec_update (fetchInstr { deliverInterrupt s with intReq := false }).1
        (fetchInstr { deliverInterrupt s with intReq := false }).2
      exact .inr (.inr ⟨rfl, rfl, t, ht,
        step_of_execOneOp ((execOneOp_runs ha (hhalt.trans hh)).trans (fetchExecute_eq ht))⟩)

/-! ### The bill -/

theorem billedCycles_le {n : Nat} (h : n ≤ 30) : billedCycles n = n := by
  unfold billedCycles Config.sentinelBound
  rw [if_neg (by omega)]

theorem billedCycles_sentinel : billedCycles Config.sentinel = 4 := by
  unfold billedCycles Config.sentinelBound Config.sentinel Config.errCycles
  rw [if_pos (by omega)]

/-- The clamp never binds: a step bills 561 ns for each cycle. -/
theorem billedNs_eq {n : Nat} (h : billedCycles n ≤ 30) : billedNs n = 561 * billedCycles n := by
  unfold billedNs Config.nsPerCycle Config.maxStepNs
  omega

/-- Every instruction takes 4 to 18 cycles, or is illegal and answers the sentinel. -/
theorem exec_cycles (i : Instr) (s : State) :
    ∃ t, exec i s = .next t ∧ (4 ≤ t.opCycles ∧ t.opCycles ≤ 18 ∨ t.opCycles = Config.sentinel) := by
  have key : ∀ (n : Nat) (u : State), 4 ≤ n ∧ n ≤ 18 →
      ∃ t, u.done n = .next t ∧ (4 ≤ t.opCycles ∧ t.opCycles ≤ 18 ∨ t.opCycles = Config.sentinel) :=
    fun n u h => ⟨_, rfl, .inl h⟩
  cases Instr.inFamily i with
  | movRR => rw [exec_movRR]; exact key 5 _ (by decide)
  | movRM => rw [exec_movRM]; exact key 7 _ (by decide)
  | movMR => rw [exec_movMR]; exact key 7 _ (by decide)
  | mviR => rw [exec_mviR]; exact key 7 _ (by decide)
  | lxi => rw [exec_lxi]; exact key 10 _ (by decide)
  | ldax => rw [exec_ldax]; exact key 7 _ (by decide)
  | stax => rw [exec_stax]; exact key 7 _ (by decide)
  | aluR => rw [exec_aluR]; exact key 4 _ (by decide)
  | aluM => rw [exec_aluM]; exact key 7 _ (by decide)
  | aluI => rw [exec_aluI]; exact key 7 _ (by decide)
  | inrR => rw [exec_inrR]; exact key 5 _ (by decide)
  | dcrR => rw [exec_dcrR]; exact key 5 _ (by decide)
  | inx => rw [exec_inx]; exact key 5 _ (by decide)
  | dcx => rw [exec_dcx]; exact key 5 _ (by decide)
  | dad => rw [exec_dad]; exact key 10 _ (by decide)
  | jumpCond => rw [exec_jumpCond]; unfold jumpIf; split <;> exact key 10 _ (by decide)
  | callCond => rw [exec_callCond]; unfold callIf; split <;> exact key _ _ (by decide)
  | retCond => rw [exec_retCond]; unfold returnIf; split <;> exact key _ _ (by decide)
  | rst => rw [exec_rst]; exact key 11 _ (by decide)
  | push => rw [exec_push]; exact key 11 _ (by decide)
  | pop => rw [exec_pop]; exact key 10 _ (by decide)
  | illegal => rw [exec_illegal]; exact ⟨_, rfl, .inr rfl⟩
  | _ => exact ⟨_, rfl, .inl ⟨Nat.le_of_ble_eq_true rfl, Nat.le_of_ble_eq_true rfl⟩⟩

/-! ### The shape of a step -/

/-- One port operation, or none, from `v` to `w`. -/
def PortOperation (v w : State) : Prop := w = v ∨ (∃ p, w = (portRead p v).2) ∨ ∃ p a, w = portWrite p a v

theorem PortOperation.coreSame {v w : State} (h : PortOperation v w) : CoreSame v w := by
  rcases h with rfl | ⟨p, rfl⟩ | ⟨p, a, rfl⟩
  · exact .intro ⟨_, _, _, _, _, _, _, rfl⟩
  · exact portRead_coreSame p v
  · exact portWrite_coreSame p a v

/-- Every step: the request latch dropped, a core update, at most one port operation, a core update, then 4 to 18 cycles billed
and the due timers fired. A claim that holds of these holds of every step. -/
theorem step_shape (s : State) : ∃ v w u,
    CoreUpdate { s with intReq := false, intVec := if s.interruptPending then 0xFF#8 else s.intVec } v ∧
    PortOperation v w ∧ CoreUpdate w u ∧ 4 ≤ billedCycles u.opCycles ∧ billedCycles u.opCycles ≤ 18 ∧
    step s = .next (fireDue (billStep u)) := by
  rcases step_cases s with ⟨_, h⟩ | ⟨_, _, h⟩ | ⟨_, _, t, ht, h⟩
  · exact ⟨_, _, _, .refl _, .inl rfl, CoreUpdate.acceptInterrupt _, show 4 ≤ billedCycles 11 by decide,
      show billedCycles 11 ≤ 18 by decide, h⟩
  · exact ⟨_, _, _, .refl _, .inl rfl, .registers ⟨_, _, _, _, _, _, _, _, _, _, _, _, _, _, rfl⟩,
      show 4 ≤ billedCycles 4 by decide, show billedCycles 4 ≤ 18 by decide, h⟩
  · set s1 : State := { s with intReq := false, intVec := if s.interruptPending then 0xFF#8 else s.intVec } with hs1
    obtain ⟨t1, ht1, hu⟩ := exec_update (fetchInstr s1).1 (fetchInstr s1).2
    obtain ⟨t2, ht2, hc⟩ := exec_cycles (fetchInstr s1).1 (fetchInstr s1).2
    rw [ht] at ht1 ht2
    cases ht1
    cases ht2
    have hb : 4 ≤ billedCycles t.opCycles ∧ billedCycles t.opCycles ≤ 18 := by
      rcases hc with ⟨h1, h2⟩ | h1
      · rw [billedCycles_le (by omega)]; exact ⟨h1, h2⟩
      · rw [h1, billedCycles_sentinel]; decide
    have hcl : CoreUpdate t (clearShadow (fetchInstr s1).1 t) := by
      rw [clearShadow_eq]; exact .registers ⟨_, _, _, _, _, _, _, _, _, _, _, _, _, _, rfl⟩
    have hop : (clearShadow (fetchInstr s1).1 t).opCycles = t.opCycles := by rw [clearShadow_eq]
    rw [← hop] at hb
    rcases hu with ⟨_, hu⟩ | ⟨p, _, hu⟩ | ⟨p, _, hu⟩
    · exact ⟨_, _, _, CoreUpdate.fetchInstr s1, .inl rfl, hu.trans hcl, hb.1, hb.2, h⟩
    · exact ⟨_, _, _, CoreUpdate.fetchInstr s1, .inr (.inl ⟨p, rfl⟩), hu.trans hcl, hb.1, hb.2, h⟩
    · exact ⟨_, _, _, CoreUpdate.fetchInstr s1, .inr (.inr ⟨p, _, rfl⟩), hu.trans hcl, hb.1, hb.2, h⟩

/-! ### The due timers and the core -/

theorem fireTimer_coreSame (x : Timer) (s : State) : CoreSame s (fireTimer x s) := by
  rcases fireTimer_cases x s with ⟨_, _, h, _⟩ | ⟨_, _, _, _, _, h⟩ <;> rw [h] <;> exact .intro ⟨_, _, _, _, _, _, _, rfl⟩

theorem fireDue_coreSame (s : State) : CoreSame s (fireDue s) :=
  fireDue_induct (P := fun t => CoreSame s t) (fun t x h _ => h.trans (fireTimer_coreSame x t)) (.intro ⟨_, _, _, _, _, _, _, rfl⟩)

end Sys2Proof.Machine
end

