-- ==== Sys2Proof/Tests/Slice0.lean ====
section
/-! SUPPORT. The model's own tests. Expected results come from spec/: the encodings of 30_encoding.md, the vectors of
95_test_vectors.md, and the rule named in a test's comment. The last part shows, for every statement that has hypotheses, a
concrete state that meets them. -/

namespace Sys2Proof.Machine

/-! ### Helpers -/

/-- The bytes given from address 0 of ROM. -/
def prog (bytes : List Byte) (s : State) : State := { s with rom := bytes.zipIdx.map (fun p => (p.2, p.1)) }

/-- The start state of the vectors of 95_test_vectors.md: power-on, with `SP` = 0x2F00. -/
def base : State := { State.reset with sp := 0x2F00 }

/-- What is seen of the state after one step with the given bytes in ROM. -/
def sees {α : Type} (bytes : List Byte) (s : State) (f : State → α) : Option α :=
  match step (prog bytes s) with
  | .next t => some (f t)
  | _ => none

/-- What is seen of the state after an operation. -/
def after {α : Type} (o : Out) (f : State → α) : Option α :=
  match o with
  | .next t => some (f t)
  | _ => none

/-- A flag byte as the spec writes it, S Z 0 AC 0 P 1 CY. -/
def fl (b : Byte) : Flags := flagsOfByte b

/-- Whether each list of bytes decodes to its instruction and nothing is left. -/
def decodeAll (rows : List (List Byte × Instr)) : Bool :=
  rows.all fun row =>
    match decode row.1 with
    | .ok (i, []) => decide (i = row.2)
    | _ => false

/-! ### Well-formedness: every term of `Instr` is an instruction, ill-formed byte lists are refused -/

theorem test_wellFormed_refuses_no_bytes : wellFormedBytes [] = false := by decide
theorem test_wellFormed_refuses_missing_operand : wellFormedBytes [0x3E] = false := by decide
theorem test_wellFormed_refuses_missing_high_byte : wellFormedBytes [0xC3, 0x10] = false := by decide
theorem test_wellFormed_refuses_surplus_byte : wellFormedBytes [0x00, 0x00] = false := by decide
theorem test_wellFormed_accepts : wellFormedBytes [0xC3, 0x10, 0x00] = true ∧ (Instr.jmp 0x10).wellFormed = true := by decide
theorem test_decode_refuses_by_name :
    (match decode [0xCD, 0x20] with | .error e => decide (e = .truncated 0xCD) | _ => false) = true ∧
    (match decode [] with | .error e => decide (e = .noBytes) | _ => false) = true := by decide

/-! ### Decoding: every row, its opcode byte written out from the bit fields of 30_encoding.md R93 to R98 and R101 -/

theorem test_decode_mov_to_b : decodeAll
    [([0b01_000_000], .movBB), ([0b01_000_001], .movBC), ([0b01_000_010], .movBD), ([0b01_000_011], .movBE),
     ([0b01_000_100], .movBH), ([0b01_000_101], .movBL), ([0b01_000_110], .movBM), ([0b01_000_111], .movBA)] = true := by decide
theorem test_decode_mov_to_c : decodeAll
    [([0b01_001_000], .movCB), ([0b01_001_001], .movCC), ([0b01_001_010], .movCD), ([0b01_001_011], .movCE),
     ([0b01_001_100], .movCH), ([0b01_001_101], .movCL), ([0b01_001_110], .movCM), ([0b01_001_111], .movCA)] = true := by decide
theorem test_decode_mov_to_d : decodeAll
    [([0b01_010_000], .movDB), ([0b01_010_001], .movDC), ([0b01_010_010], .movDD), ([0b01_010_011], .movDE),
     ([0b01_010_100], .movDH), ([0b01_010_101], .movDL), ([0b01_010_110], .movDM), ([0b01_010_111], .movDA)] = true := by decide
theorem test_decode_mov_to_e : decodeAll
    [([0b01_011_000], .movEB), ([0b01_011_001], .movEC), ([0b01_011_010], .movED), ([0b01_011_011], .movEE),
     ([0b01_011_100], .movEH), ([0b01_011_101], .movEL), ([0b01_011_110], .movEM), ([0b01_011_111], .movEA)] = true := by decide
theorem test_decode_mov_to_h : decodeAll
    [([0b01_100_000], .movHB), ([0b01_100_001], .movHC), ([0b01_100_010], .movHD), ([0b01_100_011], .movHE),
     ([0b01_100_100], .movHH), ([0b01_100_101], .movHL), ([0b01_100_110], .movHM), ([0b01_100_111], .movHA)] = true := by decide
theorem test_decode_mov_to_l : decodeAll
    [([0b01_101_000], .movLB), ([0b01_101_001], .movLC), ([0b01_101_010], .movLD), ([0b01_101_011], .movLE),
     ([0b01_101_100], .movLH), ([0b01_101_101], .movLL), ([0b01_101_110], .movLM), ([0b01_101_111], .movLA)] = true := by decide
theorem test_decode_mov_to_m : decodeAll
    [([0b01_110_000], .movMB), ([0b01_110_001], .movMC), ([0b01_110_010], .movMD), ([0b01_110_011], .movME),
     ([0b01_110_100], .movMH), ([0b01_110_101], .movML), ([0b01_110_111], .movMA)] = true := by decide
theorem test_decode_mov_to_a : decodeAll
    [([0b01_111_000], .movAB), ([0b01_111_001], .movAC), ([0b01_111_010], .movAD), ([0b01_111_011], .movAE),
     ([0b01_111_100], .movAH), ([0b01_111_101], .movAL), ([0b01_111_110], .movAM), ([0b01_111_111], .movAA)] = true := by decide
theorem test_decode_mvi_lxi : decodeAll
    [([0b00_000_110, 0xA5], .mviB 0xA5), ([0b00_001_110, 0xA5], .mviC 0xA5), ([0b00_010_110, 0xA5], .mviD 0xA5),
     ([0b00_011_110, 0xA5], .mviE 0xA5), ([0b00_100_110, 0xA5], .mviH 0xA5), ([0b00_101_110, 0xA5], .mviL 0xA5),
     ([0b00_110_110, 0xA5], .mviM 0xA5), ([0b00_111_110, 0xA5], .mviA 0xA5), ([0b00_00_0001, 0x34, 0x12], .lxiB 0x1234),
     ([0b00_01_0001, 0x34, 0x12], .lxiD 0x1234), ([0b00_10_0001, 0x34, 0x12], .lxiH 0x1234),
     ([0b00_11_0001, 0x34, 0x12], .lxiSP 0x1234)] = true := by decide
theorem test_decode_direct : decodeAll
    [([0b00_111_010, 0x34, 0x12], .lda 0x1234), ([0b00_110_010, 0x34, 0x12], .sta 0x1234),
     ([0b00_101_010, 0x34, 0x12], .lhld 0x1234), ([0b00_100_010, 0x34, 0x12], .shld 0x1234), ([0b00_00_1010], .ldaxB),
     ([0b00_01_1010], .ldaxD), ([0b00_00_0010], .staxB), ([0b00_01_0010], .staxD), ([0b11_101_011], .xchg)] = true := by decide
theorem test_decode_add : decodeAll
    [([0b10_000_000], .addB), ([0b10_000_001], .addC), ([0b10_000_010], .addD), ([0b10_000_011], .addE),
     ([0b10_000_100], .addH), ([0b10_000_101], .addL), ([0b10_000_110], .addM), ([0b10_000_111], .addA)] = true := by decide
theorem test_decode_adc : decodeAll
    [([0b10_001_000], .adcB), ([0b10_001_001], .adcC), ([0b10_001_010], .adcD), ([0b10_001_011], .adcE),
     ([0b10_001_100], .adcH), ([0b10_001_101], .adcL), ([0b10_001_110], .adcM), ([0b10_001_111], .adcA)] = true := by decide
theorem test_decode_sub : decodeAll
    [([0b10_010_000], .subB), ([0b10_010_001], .subC), ([0b10_010_010], .subD), ([0b10_010_011], .subE),
     ([0b10_010_100], .subH), ([0b10_010_101], .subL), ([0b10_010_110], .subM), ([0b10_010_111], .subA)] = true := by decide
theorem test_decode_sbb : decodeAll
    [([0b10_011_000], .sbbB), ([0b10_011_001], .sbbC), ([0b10_011_010], .sbbD), ([0b10_011_011], .sbbE),
     ([0b10_011_100], .sbbH), ([0b10_011_101], .sbbL), ([0b10_011_110], .sbbM), ([0b10_011_111], .sbbA)] = true := by decide
theorem test_decode_ana : decodeAll
    [([0b10_100_000], .anaB), ([0b10_100_001], .anaC), ([0b10_100_010], .anaD), ([0b10_100_011], .anaE),
     ([0b10_100_100], .anaH), ([0b10_100_101], .anaL), ([0b10_100_110], .anaM), ([0b10_100_111], .anaA)] = true := by decide
theorem test_decode_xra : decodeAll
    [([0b10_101_000], .xraB), ([0b10_101_001], .xraC), ([0b10_101_010], .xraD), ([0b10_101_011], .xraE),
     ([0b10_101_100], .xraH), ([0b10_101_101], .xraL), ([0b10_101_110], .xraM), ([0b10_101_111], .xraA)] = true := by decide
theorem test_decode_ora : decodeAll
    [([0b10_110_000], .oraB), ([0b10_110_001], .oraC), ([0b10_110_010], .oraD), ([0b10_110_011], .oraE),
     ([0b10_110_100], .oraH), ([0b10_110_101], .oraL), ([0b10_110_110], .oraM), ([0b10_110_111], .oraA)] = true := by decide
theorem test_decode_cmp : decodeAll
    [([0b10_111_000], .cmpB), ([0b10_111_001], .cmpC), ([0b10_111_010], .cmpD), ([0b10_111_011], .cmpE),
     ([0b10_111_100], .cmpH), ([0b10_111_101], .cmpL), ([0b10_111_110], .cmpM), ([0b10_111_111], .cmpA)] = true := by decide
theorem test_decode_alu_immediate : decodeAll
    [([0b11_000_110, 0xA5], .adi 0xA5), ([0b11_001_110, 0xA5], .aci 0xA5), ([0b11_010_110, 0xA5], .sui 0xA5),
     ([0b11_011_110, 0xA5], .sbi 0xA5), ([0b11_100_110, 0xA5], .ani 0xA5), ([0b11_101_110, 0xA5], .xri 0xA5),
     ([0b11_110_110, 0xA5], .ori 0xA5), ([0b11_111_110, 0xA5], .cpi 0xA5)] = true := by decide
theorem test_decode_inr_dcr : decodeAll
    [([0b00_000_100], .inrB), ([0b00_001_100], .inrC), ([0b00_010_100], .inrD), ([0b00_011_100], .inrE),
     ([0b00_100_100], .inrH), ([0b00_101_100], .inrL), ([0b00_110_100], .inrM), ([0b00_111_100], .inrA),
     ([0b00_000_101], .dcrB), ([0b00_001_101], .dcrC), ([0b00_010_101], .dcrD), ([0b00_011_101], .dcrE),
     ([0b00_100_101], .dcrH), ([0b00_101_101], .dcrL), ([0b00_110_101], .dcrM), ([0b00_111_101], .dcrA)] = true := by decide
theorem test_decode_pairs : decodeAll
    [([0b00_00_0011], .inxB), ([0b00_01_0011], .inxD), ([0b00_10_0011], .inxH), ([0b00_11_0011], .inxSP),
     ([0b00_00_1011], .dcxB), ([0b00_01_1011], .dcxD), ([0b00_10_1011], .dcxH), ([0b00_11_1011], .dcxSP),
     ([0b00_00_1001], .dadB), ([0b00_01_1001], .dadD), ([0b00_10_1001], .dadH), ([0b00_11_1001], .dadSP)] = true := by decide
theorem test_decode_accumulator : decodeAll
    [([0b00_000_111], .rlc), ([0b00_001_111], .rrc), ([0b00_010_111], .ral), ([0b00_011_111], .rar), ([0b00_100_111], .daa),
     ([0b00_101_111], .cma), ([0b00_110_111], .stc), ([0b00_111_111], .cmc)] = true := by decide
theorem test_decode_jumps : decodeAll
    [([0b11_000_011, 0x34, 0x12], .jmp 0x1234), ([0b11_000_010, 0x34, 0x12], .jnz 0x1234),
     ([0b11_001_010, 0x34, 0x12], .jz 0x1234), ([0b11_010_010, 0x34, 0x12], .jnc 0x1234),
     ([0b11_011_010, 0x34, 0x12], .jc 0x1234), ([0b11_100_010, 0x34, 0x12], .jpo 0x1234),
     ([0b11_101_010, 0x34, 0x12], .jpe 0x1234), ([0b11_110_010, 0x34, 0x12], .jp 0x1234),
     ([0b11_111_010, 0x34, 0x12], .jm 0x1234), ([0b11_101_001], .pchl)] = true := by decide
theorem test_decode_calls : decodeAll
    [([0b11_001_101, 0x34, 0x12], .call 0x1234), ([0b11_000_100, 0x34, 0x12], .cnz 0x1234),
     ([0b11_001_100, 0x34, 0x12], .cz 0x1234), ([0b11_010_100, 0x34, 0x12], .cnc 0x1234),
     ([0b11_011_100, 0x34, 0x12], .cc 0x1234), ([0b11_100_100, 0x34, 0x12], .cpo 0x1234),
     ([0b11_101_100, 0x34, 0x12], .cpe 0x1234), ([0b11_110_100, 0x34, 0x12], .cp 0x1234),
     ([0b11_111_100, 0x34, 0x12], .cm 0x1234)] = true := by decide
theorem test_decode_returns : decodeAll
    [([0b11_001_001], .ret), ([0b11_000_000], .rnz), ([0b11_001_000], .rz), ([0b11_010_000], .rnc), ([0b11_011_000], .rc),
     ([0b11_100_000], .rpo), ([0b11_101_000], .rpe), ([0b11_110_000], .rp), ([0b11_111_000], .rm)] = true := by decide
theorem test_decode_restarts : decodeAll
    [([0b11_000_111], .rst0), ([0b11_001_111], .rst1), ([0b11_010_111], .rst2), ([0b11_011_111], .rst3),
     ([0b11_100_111], .rst4), ([0b11_101_111], .rst5), ([0b11_110_111], .rst6), ([0b11_111_111], .rst7)] = true := by decide
theorem test_decode_stack : decodeAll
    [([0b11_00_0101], .pushB), ([0b11_01_0101], .pushD), ([0b11_10_0101], .pushH), ([0b11_11_0101], .pushPSW),
     ([0b11_00_0001], .popB), ([0b11_01_0001], .popD), ([0b11_10_0001], .popH), ([0b11_11_0001], .popPSW),
     ([0b11_100_011], .xthl), ([0b11_111_001], .sphl)] = true := by decide
theorem test_decode_control : decodeAll
    [([0b11_011_011, 0xA5], .inPort 0xA5), ([0b11_010_011, 0xA5], .outPort 0xA5), ([0b11_111_011], .ei), ([0b11_110_011], .di),
     ([0b01_110_110], .hlt), ([0b00_000_000], .nop)] = true := by decide
theorem test_decode_illegal : decodeAll
    [([0b00_001_000], .illegal08), ([0b00_010_000], .illegal10), ([0b00_011_000], .illegal18), ([0b00_100_000], .illegal20),
     ([0b00_101_000], .illegal28), ([0b00_110_000], .illegal30), ([0b00_111_000], .illegal38), ([0b11_001_011], .illegalCB),
     ([0b11_011_001], .illegalD9), ([0b11_011_101], .illegalDD), ([0b11_101_101], .illegalED), ([0b11_111_101], .illegalFD)] = true := by decide

theorem test_decodeTableWord : decodeTableWord 24 0x1234CD = some (.call 0x1234) ∧ decodeTableWord 8 0x3E = some (.mviA 0) := by
  decide
theorem test_encode_jmp : encode (.jmp 0x1234) = [0b11_000_011, 0x34, 0x12] := by decide

/-- From reset, the very next step runs the placed instruction. -/
theorem test_withFetchWord_runs : after (step (State.reset.withFetchWord 16 0x413E)) (fun t => (t.a, t.pc)) = some (0x41, 2) := by
  decide
/-- In a state that would accept an interrupt, too. -/
theorem test_withFetchWord_before_interrupt :
    after (step ({ base with inte := true, intReq := true, halted := true }.withFetchWord 8 0x37)) (fun t => (t.flags.carry, t.pc)) =
      some (true, 1) := by decide

/-! ### Data transfer (95_test_vectors.md 2.1) -/

theorem test_mov_b_a : sees [0x47] { base with a := 0x5A } (fun t => (t.a, t.b, t.pc, t.cyc)) = some (0x5A, 0x5A, 1, 5) := by decide
theorem test_mov_e_m : sees [0x5E] { base with h := 0x20, l := 0x10, ram := [(0x2010, 0xC3)] } (fun t => (t.e, t.cyc)) =
    some (0xC3, 7) := by decide
theorem test_mov_m_d_top : sees [0x72] { base with h := 0x2F, l := 0xFF, d := 0x99 } (fun t => (t.ram, t.cyc)) =
    some ([(0x2FFF, 0x99)], 7) := by decide
theorem test_mov_m_h : sees [0x74] { base with h := 0x20, l := 0x05 } (fun t => t.ram) = some [(0x2005, 0x20)] := by decide
theorem test_mov_a_m_unmapped : sees [0x7E] { base with h := 0x10 } (fun t => (t.a, t.fault, t.draws)) =
    some (Config.freeByte 0, some (.undefinedAddressRead 0x1000), 1) := by rfl
theorem test_mov_m_a_rom : sees [0x77] { base with l := 0x05, a := 0x01 } (fun t => (t.rom, t.ram, t.fault)) =
    some ([(0, 0x77)], [], some (.romWrite 0x0005)) := by decide
theorem test_mvi_c : sees [0x0E, 0x7F] base (fun t => (t.c, t.pc, t.cyc)) = some (0x7F, 2, 7) := by decide
theorem test_mvi_m : sees [0x36, 0xA5] { base with h := 0x20 } (fun t => (t.ram, t.cyc)) = some ([(0x2000, 0xA5)], 10) := by decide
theorem test_lxi_sp : sees [0x31, 0x00, 0x30] base (fun t => (t.sp, t.pc, t.cyc)) = some (0x3000, 3, 10) := by decide
theorem test_lxi_h : sees [0x21, 0xCD, 0x2B] base (fun t => (t.h, t.l)) = some (0x2B, 0xCD) := by decide
theorem test_lda : sees [0x3A, 0xFF, 0x2F] { base with ram := [(0x2FFF, 0x77)] } (fun t => (t.a, t.cyc)) = some (0x77, 13) := by decide
theorem test_sta : sees [0x32, 0x00, 0x20] { base with a := 0xEE } (fun t => (t.ram, t.cyc)) = some ([(0x2000, 0xEE)], 13) := by
  decide
theorem test_lhld : sees [0x2A, 0x10, 0x20] { base with ram := [(0x2010, 0x34), (0x2011, 0x12)] } (fun t => (t.hl, t.cyc)) =
    some (0x1234, 16) := by decide
theorem test_shld_across_end : sees [0x22, 0xFF, 0x2F] { base with h := 0xAB, l := 0xCD } (fun t => (t.ram, t.fault, t.cyc)) =
    some ([(0x2FFF, 0xCD)], some (.undefinedAddressWrite 0x3000), 16) := by decide
theorem test_ldax_d : sees [0x1A] { base with d := 0x20, e := 0x01, ram := [(0x2001, 0x42)] } (fun t => (t.a, t.cyc)) =
    some (0x42, 7) := by decide
theorem test_stax_b : sees [0x02] { base with b := 0x20, c := 0x02, a := 0x24 } (fun t => (t.ram, t.cyc)) =
    some ([(0x2002, 0x24)], 7) := by decide
theorem test_xchg : sees [0xEB] { base with d := 0x11, e := 0x22, h := 0x33, l := 0x44 } (fun t => (t.de, t.hl, t.cyc)) =
    some (0x3344, 0x1122, 4) := by decide

/-! ### Arithmetic (95_test_vectors.md 2.2); the flag byte is S Z 0 AC 0 P 1 CY -/

theorem test_add_wraps : sees [0x80] { base with a := 0xFF, b := 0x01 } (fun t => (t.a, flagByte t.flags, t.cyc)) =
    some (0x00, 0b01010111, 4) := by decide
theorem test_add_signed_overflow : sees [0x80] { base with a := 0x7F, b := 0x01 } (fun t => (t.a, flagByte t.flags)) =
    some (0x80, 0b10010010) := by decide
theorem test_adc_with_carry : sees [0x89] { base with a := 0xFF, c := 0xFF, flags := fl 0x01 } (fun t => (t.a, flagByte t.flags)) =
    some (0xFF, 0b10010111) := by decide
theorem test_adi_ignores_carry : sees [0xC6, 0x00] { base with flags := fl 0x01 } (fun t => (t.a, flagByte t.flags, t.cyc)) =
    some (0x00, 0b01000110, 7) := by decide
theorem test_sub_self : sees [0x97] { base with a := 0x5C } (fun t => (t.a, flagByte t.flags)) = some (0x00, 0b01010110) := by decide
theorem test_sui_borrows : sees [0xD6, 0x01] base (fun t => (t.a, flagByte t.flags)) = some (0xFF, 0b10000111) := by decide
theorem test_sub_half_borrow : sees [0x90] { base with a := 0x80, b := 0x01 } (fun t => (t.a, flagByte t.flags)) =
    some (0x7F, 0b00000010) := by decide
theorem test_sbb_self_with_carry : sees [0x9F] { base with a := 0x12, flags := fl 0x01 } (fun t => (t.a, flagByte t.flags)) =
    some (0xFF, 0b10000111) := by decide
theorem test_sbi_wraps_twice : sees [0xDE, 0xFF] { base with flags := fl 0x01 } (fun t => (t.a, flagByte t.flags)) =
    some (0x00, 0b01000111) := by decide
theorem test_inr_keeps_carry_clear : sees [0x3C] { base with a := 0xFF } (fun t => (t.a, flagByte t.flags, t.cyc)) =
    some (0x00, 0b01010110, 5) := by decide
theorem test_inr_keeps_carry_set : sees [0x3C] { base with a := 0x0F, flags := fl 0x01 } (fun t => (t.a, flagByte t.flags)) =
    some (0x10, 0b00010011) := by decide
theorem test_dcr_wraps : sees [0x05] { base with flags := fl 0x01 } (fun t => (t.b, flagByte t.flags, t.cyc)) =
    some (0xFF, 0b10000111, 5) := by decide
theorem test_dcr_to_zero : sees [0x05] { base with b := 0x01 } (fun t => (t.b, flagByte t.flags)) = some (0x00, 0b01010110) := by decide
theorem test_dcr_m : sees [0x35] { base with h := 0x20, ram := [(0x2000, 0x10)] } (fun t => (t.ram, flagByte t.flags, t.cyc)) =
    some ([(0x2000, 0x0F)], 0b00000110, 10) := by decide
theorem test_inr_m_rom : sees [0x34, 0xFF] { base with l := 0x01 } (fun t => (t.rom, flagByte t.flags, t.fault)) =
    some ([(0, 0x34), (1, 0xFF)], 0b01010110, some (.romWrite 0x0001)) := by decide
theorem test_inx_sp_wraps : sees [0x33] { base with sp := 0xFFFF, flags := fl 0x97 } (fun t => (t.sp, flagByte t.flags, t.cyc)) =
    some (0x0000, 0b10010111, 5) := by decide
theorem test_dcx_b_wraps : sees [0x0B] base (fun t => (t.bc, flagByte t.flags, t.cyc)) = some (0xFFFF, 0b00000010, 5) := by decide
theorem test_dad_h : sees [0x29] { base with h := 0x80, l := 0x01, flags := fl 0x40 } (fun t => (t.hl, flagByte t.flags, t.cyc)) =
    some (0x0002, 0b01000011, 10) := by decide
theorem test_dad_sp_clears_carry : sees [0x39] { base with flags := fl 0x01 } (fun t => (t.hl, flagByte t.flags)) =
    some (0x2F00, 0b00000010) := by decide
theorem test_daa_both_corrections : sees [0x27] { base with a := 0x9A } (fun t => (t.a, flagByte t.flags, t.cyc)) =
    some (0x00, 0b01010111, 4) := by decide
theorem test_daa_half_carry_in : sees [0x27] { base with a := 0x73, flags := fl 0x10 } (fun t => (t.a, flagByte t.flags)) =
    some (0x79, 0b00000010) := by decide

/-! ### Logic, compare, rotate (95_test_vectors.md 2.3) -/

theorem test_ana_half_carry : sees [0xA0] { base with a := 0xFC, b := 0x0F, flags := fl 0x01 } (fun t => (t.a, flagByte t.flags)) =
    some (0x0C, 0b00010110) := by decide
theorem test_ani_no_half_carry : sees [0xE6, 0xF0] { base with a := 0x37 } (fun t => (t.a, flagByte t.flags, t.cyc)) =
    some (0x30, 0b00000110, 7) := by decide
theorem test_xra_self : sees [0xAF] { base with a := 0xD7, flags := fl 0x11 } (fun t => (t.a, flagByte t.flags)) =
    some (0x00, 0b01000110) := by decide
theorem test_xri : sees [0xEE, 0xFF] { base with a := 0x0F } (fun t => (t.a, flagByte t.flags)) = some (0xF0, 0b10000110) := by decide
theorem test_ora_clears_carries : sees [0xB7] { base with a := 0x80, flags := fl 0x11 } (fun t => (t.a, flagByte t.flags)) =
    some (0x80, 0b10000010) := by decide
theorem test_ori : sees [0xF6, 0x00] base (fun t => (t.a, flagByte t.flags)) = some (0x00, 0b01000110) := by decide
theorem test_cmp_below : sees [0xB8] { base with a := 0x02, b := 0x05 } (fun t => (t.a, flagByte t.flags)) =
    some (0x02, 0b10000011) := by decide
theorem test_cpi : sees [0xFE, 0x40] { base with a := 0x4A } (fun t => (t.a, flagByte t.flags, t.cyc)) =
    some (0x4A, 0b00010110, 7) := by decide
theorem test_cmp_m : sees [0xBE] { base with h := 0x20, ram := [(0x2000, 0x80)] } (fun t => (t.a, flagByte t.flags, t.cyc)) =
    some (0x00, 0b10010011, 7) := by decide
theorem test_rlc : sees [0x07] { base with a := 0xF2 } (fun t => (t.a, flagByte t.flags, t.cyc)) = some (0xE5, 0b00000011, 4) := by decide
theorem test_rrc : sees [0x0F] { base with a := 0x01 } (fun t => (t.a, flagByte t.flags)) = some (0x80, 0b00000011) := by decide
theorem test_ral : sees [0x17] { base with a := 0xB5 } (fun t => (t.a, flagByte t.flags)) = some (0x6A, 0b00000011) := by decide
theorem test_rar : sees [0x1F] { base with a := 0x6A, flags := fl 0x01 } (fun t => (t.a, flagByte t.flags)) =
    some (0xB5, 0b00000010) := by decide
theorem test_cma : sees [0x2F] { base with a := 0x51, flags := fl 0x40 } (fun t => (t.a, flagByte t.flags)) =
    some (0xAE, 0b01000010) := by decide
theorem test_stc : sees [0x37] base (fun t => flagByte t.flags) = some 0b00000011 := by decide
theorem test_cmc : sees [0x3F] { base with flags := fl 0x01 } (fun t => flagByte t.flags) = some 0b00000010 := by decide

/-! ### Branches (95_test_vectors.md 2.4) -/

theorem test_jmp : sees [0xC3, 0x23, 0x01] base (fun t => (t.pc, t.cyc)) = some (0x0123, 10) := by decide
theorem test_jnz_not_taken : sees [0xC2, 0x00, 0x01] { base with flags := fl 0x40 } (fun t => (t.pc, t.cyc)) = some (3, 10) := by decide
theorem test_jnz_taken : sees [0xC2, 0x00, 0x01] base (fun t => (t.pc, t.cyc)) = some (0x0100, 10) := by decide
theorem test_jpe : sees [0xEA, 0x34, 0x02] { base with flags := fl 0x04 } (fun t => t.pc) = some 0x0234 := by decide
theorem test_jm_not_taken : sees [0xFA, 0x34, 0x02] base (fun t => t.pc) = some 3 := by decide
theorem test_call_stack_bytes : sees [0xCD, 0x00, 0x02] base (fun t => (t.pc, t.sp, t.ram, t.cyc)) =
    some (0x0200, 0x2EFE, [(0x2EFE, 0x03), (0x2EFF, 0x00)], 17) := by decide
theorem test_call_stack_below_ram : sees [0xCD, 0x00, 0x02] { base with sp := 0x2000 } (fun t => (t.pc, t.sp, t.fault)) =
    some (0x0200, 0x1FFE, some (.undefinedAddressWrite 0x1FFF)) := by decide
theorem test_cz_not_taken : sees [0xCC, 0x00, 0x02] base (fun t => (t.pc, t.sp, t.cyc)) = some (3, 0x2F00, 11) := by decide
theorem test_cc_taken : sees [0xDC, 0x00, 0x02] { base with flags := fl 0x01 } (fun t => (t.pc, t.sp, t.cyc)) =
    some (0x0200, 0x2EFE, 17) := by decide
theorem test_ret : sees [0xC9] { base with sp := 0x2EFE, ram := [(0x2EFE, 0x03), (0x2EFF, 0x01)] } (fun t => (t.pc, t.sp, t.cyc)) =
    some (0x0103, 0x2F00, 10) := by decide
theorem test_rnc_not_taken : sees [0xD0] { base with sp := 0x2EFE, flags := fl 0x01 } (fun t => (t.pc, t.sp, t.cyc)) =
    some (1, 0x2EFE, 5) := by decide
theorem test_rc_taken : sees [0xD8] { base with sp := 0x2EFE, ram := [(0x2EFE, 0x03), (0x2EFF, 0x01)], flags := fl 0x01 }
    (fun t => (t.pc, t.sp, t.cyc)) = some (0x0103, 0x2F00, 11) := by decide
theorem test_rst3 : sees [0xDF] base (fun t => (t.pc, t.sp, t.ram, t.cyc)) =
    some (0x0018, 0x2EFE, [(0x2EFE, 0x01), (0x2EFF, 0x00)], 11) := by decide
theorem test_pchl : sees [0xE9] { base with h := 0x21 } (fun t => (t.pc, t.cyc)) = some (0x2100, 5) := by decide

/-! ### Stack, input, output, control (95_test_vectors.md 2.5, 2.6) -/

theorem test_push_b : sees [0xC5] { base with b := 0x12, c := 0x34 } (fun t => (t.sp, t.ram, t.cyc)) =
    some (0x2EFE, [(0x2EFE, 0x34), (0x2EFF, 0x12)], 11) := by decide
theorem test_push_psw : sees [0xF5] { base with a := 0x1F, flags := ⟨true, false, true, false, true⟩ } (fun t => t.ram) =
    some [(0x2EFE, 0x93), (0x2EFF, 0x1F)] := by decide
theorem test_push_psw_all_flags : sees [0xF5] { base with a := 0xFF, flags := ⟨true, true, true, true, true⟩ } (fun t => t.ram) =
    some [(0x2EFE, 0xD7), (0x2EFF, 0xFF)] := by decide
theorem test_pop_psw : sees [0xF1] { base with sp := 0x2EFE, ram := [(0x2EFE, 0xFF), (0x2EFF, 0x12)] }
    (fun t => (t.a, t.flags, t.sp, t.cyc)) = some (0x12, ⟨true, true, true, true, true⟩, 0x2F00, 10) := by decide
theorem test_pop_psw_ignores_bits_3_and_5 : sees [0xF1] { base with sp := 0x2EFE, ram := [(0x2EFE, 0x28), (0x2EFF, 0x00)] }
    (fun t => t.flags) = some Flags.reset := by decide
theorem test_pop_d : sees [0xD1] { base with sp := 0x2EFE, ram := [(0x2EFE, 0x78), (0x2EFF, 0x56)] } (fun t => (t.de, t.sp, t.cyc)) =
    some (0x5678, 0x2F00, 10) := by decide
theorem test_pop_h_past_ram : sees [0xE1] { base with sp := 0x2FFF, ram := [(0x2FFF, 0x78)] }
    (fun t => (t.fault, t.sp, t.draws)) = some (some (.undefinedAddressRead 0x3000), 0x3001, 1) := by decide
theorem test_xthl : sees [0xE3] { base with sp := 0x2EFE, h := 0x0B, l := 0x3C, ram := [(0x2EFE, 0xF0), (0x2EFF, 0x0D)] }
    (fun t => (t.hl, t.ram, t.sp, t.cyc)) = some (0x0DF0, [(0x2EFE, 0x3C), (0x2EFF, 0x0B)], 0x2EFE, 18) := by decide
theorem test_sphl : sees [0xF9] { base with h := 0x2F, l := 0x80 } (fun t => (t.sp, t.cyc)) = some (0x2F80, 5) := by decide
theorem test_nop : sees [0x00] base (fun t => (t.pc, t.cyc, t.sched.now)) = some (1, 4, 2244) := by decide
theorem test_hlt : sees [0x76] base (fun t => (t.halted, t.pc, t.cyc)) = some (true, 1, 7) := by decide
theorem test_ei : sees [0xFB] base (fun t => (t.inte, t.eiShadow, t.cyc)) = some (true, true, 4) := by decide
theorem test_nop_clears_shadow : sees [0x00] { base with inte := true, eiShadow := true } (fun t => (t.inte, t.eiShadow)) =
    some (true, false) := by decide
theorem test_di : sees [0xF3] { base with inte := true } (fun t => (t.inte, t.cyc)) = some (false, 4) := by decide
theorem test_illegal_cb : sees [0xCB, 0x34, 0x12] base (fun t => (t.fault, t.pc, t.sp, t.cyc)) =
    some (some (.illegalOpcode 0xCB 0x0000), 1, 0x2F00, 4) := by decide

/-- A channel that is sending. -/
def sending : Channel := { Channel.reset with txReady := false, txByte := 0x55, txTimer := some 0 }

theorem test_in_tx_poll : sees [0xDB, 0x00] { base with uart := { base.uart with ch0 := sending, ch2 := sending } }
    (fun t => (t.a, t.cyc)) = some (0x05, 10) := by decide
theorem test_in_bus_status : sees [0xDB, 0x01] { base with bus := { base.bus with
    selected := true, ioOffset := 5, cpb := false, cbsSeen := true, primeSeen := false } } (fun t => t.a) = some 0xBA := by decide
theorem test_in_ob_data : sees [0xDB, 0x02] { base with bus := { base.bus with cbsSeen := true, obscbsData := 0x0F } }
    (fun t => (t.a, t.bus.cbsSeen)) = some (0xF0, false) := by decide
theorem test_in_uart_data_empty : sees [0xDB, 0x06] base (fun t => (t.a, t.fault)) = some (0x00, none) := by decide
theorem test_in_uart_status_beyond_num_terms : sees [0xDB, 0x0E] { base with uart := { base.uart with
    sel := .c1, ch1 := { Channel.reset with fifo := [0x41] } } } (fun t => t.a) = some 0x07 := by decide
theorem test_in_undefined_port : sees [0xDB, 0x05] base (fun t => (t.a, t.fault)) =
    some (Config.freeByte 0, some (.undefinedPortRead 0x05)) := by rfl
theorem test_out_ib : sees [0xD3, 0x01] { base with a := 0xBE } (fun t => t.trace) = some [⟨0, .ibs 0x041⟩] := by decide
theorem test_out_ib9 : sees [0xD3, 0x11] { base with a := 0xBE } (fun t => t.trace) = some [⟨0, .ibs 0x141⟩] := by decide
theorem test_out_warm_reset : sees [0xD3, 0x02] { base with bus := { base.bus with primeSeen := false } }
    (fun t => (t.trace, t.bus.primeSeen)) = some ([⟨0, .sysWarmReset⟩], true) := by decide
theorem test_out_select : sees [0xD3, 0x05] { base with a := 0x08 } (fun t => (t.uart.sel, t.fault)) = some (.c3, none) := by decide
theorem test_out_select_not_one_hot : sees [0xD3, 0x05] { base with a := 0x03 } (fun t => (t.uart.sel, t.fault)) =
    some (.c0, some (.badUartSelect 0x03)) := by decide
/-- 95_test_vectors.md 1.7: the deadline counts from the time before the step. -/
theorem test_out_uart_data : sees [0xD3, 0x06] { base with a := 0x55, sched := { base.sched with now := 33099 } }
    (fun t => (t.uart.ch0.txByte, t.uart.ch0.txReady, t.sched.timers)) = some (0x55, false, [⟨0, 606016, 0, .c0⟩]) := by decide
theorem test_out_uart_overrun : sees [0xD3, 0x06] { base with a := 0x66, uart := { base.uart with ch0 := sending } }
    (fun t => (t.uart.ch0.txByte, t.fault)) = some (0x55, some (.txOverrun .c0)) := by decide

/-! ### UART, bus, scheduler (95_test_vectors.md 1.5, 1.6, 2.7 to 2.9) -/

/-- Two timers of one deadline fire in creation order. -/
theorem test_equal_deadlines : earliest [⟨0, 572917, 0, .c1⟩, ⟨1, 572917, 1, .c0⟩] = some ⟨0, 572917, 0, .c1⟩ := by decide
theorem test_ms_until_next : msUntilNext { base with sched := ⟨1000000, [⟨0, 1572917, 0, .c0⟩], 1⟩ } = some 1 ∧
    msUntilNext { base with sched := ⟨1000000, [⟨0, 3000001, 0, .c0⟩], 1⟩ } = some 3 ∧
    msUntilNext { base with sched := ⟨1000000, [⟨0, 999999, 0, .c0⟩], 1⟩ } = some 0 ∧ msUntilNext base = none := by decide
/-- A timer fires at the first boundary at or after its deadline, and not before. -/
theorem test_timer_fires_at_deadline : sees [0x00] { base with
    uart := { base.uart with ch0 := sending }, sched := ⟨0, [⟨0, 2244, 0, .c0⟩], 1⟩ } (fun t => (t.uart.ch0.txReady, t.sched.timers)) =
    some (true, []) := by decide
theorem test_timer_waits_for_deadline : sees [0x00] { base with
    uart := { base.uart with ch0 := sending }, sched := ⟨0, [⟨0, 2245, 0, .c0⟩], 1⟩ } (fun t => t.uart.ch0.txReady) = some false := by
  decide
theorem test_flow_control_bytes_are_filtered :
    (after (envStep (.enqueueRxBatch .c0 [0x11, 0x55, 0x13, 0x56]) base) (fun t => t.uart.ch0.fifo)) = some [0x55, 0x56] := by decide
theorem test_keystroke_on_attached_channel : after (envStep (.receiveKeystroke .c0 0x41)
    { base with uart := { base.uart with ch0 := { Channel.reset with endpoint := .serial } } }) (fun t => t.uart.ch0.fifo) = some [] := by
  decide
theorem test_select_45 : after (envStep (.select 0x45) base) (fun t => (t.bus.ioOffset, t.bus.selected, getIb t)) =
    some (5, true, 0x10) := by decide
theorem test_ready_at_offset_1 : (State.devReady { base with bus := { base.bus with selected := true, ioOffset := 1, rbi := 0xFE } },
    State.devReady { base with bus := { base.bus with selected := true, ioOffset := 1, rbi := 0x01 } }) = (true, false) := by decide

/-! ### Interrupts (60_exceptions.md R419; 95_test_vectors.md 2.10) -/

/-- A state that waits for a byte: enabled interrupts and a byte in FIFO 0. -/
def waiting : State := { base with pc := 0x100, inte := true, a := 0x7E, uart := { base.uart with ch0 := { Channel.reset with fifo := [0x42] } } }

theorem test_acceptance : sees [] waiting (fun t => (t.pc, t.sp, t.ram, t.sched.now)) =
    some (0x0038, 0x2EFE, [(0x2EFE, 0x00), (0x2EFF, 0x01)], 6171) := by decide
theorem test_acceptance_faulting_stack : sees [] { waiting with sp := 0x2000 } (fun t => (t.pc, t.sp, t.fault)) =
    some (0x0038, 0x1FFE, some (.undefinedAddressWrite 0x1FFF)) := by decide
theorem test_no_acceptance_in_shadow : sees [0x00] { waiting with pc := 0, eiShadow := true } (fun t => (t.pc, t.inte, t.intReq)) =
    some (1, true, false) := by decide
theorem test_halted_wakes : sees [] { waiting with halted := true } (fun t => (t.pc, t.halted)) = some (0x0038, false) := by decide
theorem test_halted_idles : sees [] { base with halted := true, pc := 1 } (fun t => (t.pc, t.halted, t.cyc)) = some (1, true, 4) := by decide

/-! ### Witnesses: for each statement with hypotheses, concrete values that meet them, clause by clause -/

/-- A state in the middle of a transmission, with a byte received: the statements about runs speak of it. -/
def midRun : State := { prog [0x00] base with
  cyc := 10, uart := { base.uart with ch0 := { sending with endpoint := .serial, fifo := [0x42] } }
  sched := ⟨5610, [⟨0, 7000, 0, .c0⟩], 1⟩ }

theorem midRun_inv : midRun.Inv where
  ramCanonical := rfl
  romCanonical := rfl
  fifoBound := by intro k; cases k <;> decide
  oneTimer := by
    intro k
    cases k
    · exact .inr ⟨rfl, _, rfl, rfl⟩
    · exact .inl ⟨rfl, rfl, rfl⟩
    · exact .inl ⟨rfl, rfl, rfl⟩
    · exact .inl ⟨rfl, rfl, rfl⟩
  oneStrobe := by decide
  noneDue := by decide
  handles := by decide
  requestDropped := rfl
  clock := rfl
  unattached := by intro k; cases k <;> decide
  xoffNeeded := by intro k; cases k <;> decide

theorem test_witness_DecodeInvertsEncode : (Instr.lxiSP 0xFFFF).wellFormed = true ∧ (Instr.illegalFD).wellFormed = true := by decide
theorem test_witness_EncodeInvertsDecode : decode [0x3E, 0xFF, 0x99] = .ok (.mviA 0xFF, [0x99]) := by rfl
/-- Both clauses at their boundary: two operand bytes for a three-byte opcode, and one. -/
theorem test_witness_DecodingIsTotal : instrLength 0xCD ≤ [0x20, 0x00].length + 1 ∧ [(0x20 : Byte)].length + 1 < instrLength 0xCD := by
  decide
theorem test_witness_StepRunsTheInstructionAtPc :
    let i := Instr.jmp 0x0010
    let s := { prog [0xC3, 0x10, 0x00] base with inte := true, eiShadow := true, intReq := true }
    i.wellFormed = true ∧ s.halted = false ∧ ((s.interruptPending || s.intReq) && s.inte && !s.eiShadow) = false ∧
    ∀ j, j < (encode i).length → s.peek (s.pc + BitVec.ofNat 16 j) = (encode i)[j]? := by
  refine ⟨rfl, rfl, rfl, fun j hj => ?_⟩
  match j, hj with
  | 0, _ => rfl
  | 1, _ => rfl
  | 2, _ => rfl
theorem test_witness_HaltedStepIdles :
    let s := { waiting with halted := true, inte := false }
    s.halted = true ∧ ((s.interruptPending || s.intReq) && s.inte && !s.eiShadow) = false := by decide
theorem test_witness_InterruptEntry : waiting.interruptPending = true ∧ waiting.inte = true ∧ waiting.eiShadow = false := by decide
/-- Both branches: the highest restart opcode, the lowest one, and a byte that is none. -/
theorem test_witness_VectorAcceptance :
    let s (v : Byte) : State := { base with intReq := true, inte := true, intVec := v }
    ((s 0xFF).intReq = true ∧ (s 0xFF).inte = true ∧ (s 0xFF).eiShadow = false) ∧
    (s 0xFF).intVec &&& 0xC7#8 = 0xC7#8 ∧ (s 0xC7).intVec &&& 0xC7#8 = 0xC7#8 ∧ (s 0xCD).intVec &&& 0xC7#8 ≠ 0xC7#8 := by decide
theorem test_witness_ReturnResumesTheInterruptedProgram :
    let s := { waiting with sp := 0x2002 }
    s.interruptPending = true ∧ s.inte = true ∧ s.eiShadow = false ∧
    regionOf (s.sp - 1#16) = .ram ∧ regionOf (s.sp - 2#16) = .ram := by decide
/-- For StepAdvancesTheClock, StepKeepsTheInvariant and DeliveredByteWasHeld: a step from a state with the invariant. -/
theorem test_witness_step : midRun.Inv ∧ ∃ t, step midRun = .next t := ⟨midRun_inv, _, rfl⟩
/-- For RomAndConfigurationNeverChange and TraceIsNeverRewritten: a transition of either kind; and the addresses at their bounds. -/
theorem test_witness_Transition :
    (∃ t, Transition midRun t) ∧ (∃ t, envStep (.strobeObs 0x41) midRun = .next t ∧ Transition midRun t) ∧
    (0x0FFF#16).toNat < 0x1000 ∧ 0x1000 ≤ (0x1000#16).toNat ∧ (0x1FFF#16).toNat < 0x2000 ∧ 0x3000 ≤ (0x3000#16).toNat :=
  ⟨⟨_, .inl rfl⟩, ⟨_, rfl, .inr ⟨.strobeObs 0x41, rfl⟩⟩, by decide⟩
theorem test_witness_FirstFaultIsKept :
    let s : State := { midRun with fault := some .doubleStrobe }
    s.fault = some .doubleStrobe ∧ ∃ t, Transition s t := ⟨rfl, _, .inl rfl⟩
theorem test_witness_EnvironmentKeepsTheInvariant :
    midRun.Inv ∧ (∃ t, envStep (.enqueueRx .c0 0x43) midRun = .next t) ∧ ∃ t, envStep (.attachSerial .c0) midRun = .next t :=
  ⟨midRun_inv, ⟨_, rfl⟩, _, rfl⟩
/-- The second clause at the deadline itself, the third just before it. -/
theorem test_witness_TimersFireInOrder :
    let s (now : Nat) : State := { midRun with sched := { midRun.sched with now := now } }
    (earliest (s 7000).sched.timers = some ⟨0, 7000, 0, .c0⟩ ∧ 7000 ≤ (s 7000).sched.now) ∧
    ∃ y ∈ (s 6999).sched.timers, (s 6999).sched.now < y.deadline :=
  ⟨⟨by decide, by decide⟩, ⟨0, 7000, 0, .c0⟩, by decide, by decide⟩
theorem test_witness_TimerFiresWithinOneStep :
    midRun.Inv ∧ (∃ t, step midRun = .next t) ∧ (⟨0, 7000, 0, .c0⟩ : Timer) ∈ midRun.sched.timers :=
  ⟨midRun_inv, ⟨_, rfl⟩, by decide⟩
/-- Both clauses: an operation on another channel, and an attach of this one. -/
theorem test_witness_XoffAndXonAlternate :
    ((EnvOp.detach .c1).rebinds .c0 = false ∧ ∃ t, envStep (.detach .c1) midRun = .next t) ∧
    (EnvOp.attachSerial .c0).rebinds .c0 = true ∧ ∃ t, envStep (.attachSerial .c0) midRun = .next t :=
  ⟨⟨rfl, _, rfl⟩, rfl, _, rfl⟩
theorem test_witness_CharacterTimeCallback :
    (base.chan .c0).endpoint = .null ∧ (midRun.chan .c0).endpoint ≠ .null := by decide
theorem test_witness_ImmediatesAndExchangeLoadRegisters : RegPair.hl ≠ .bc := by decide
theorem test_witness_DaaCorrects :
    let s (a : Byte) (ac cy : Bool) : State := { base with a := a, flags := ⟨false, false, ac, false, cy⟩ }
    (9 < (s 0x9A false false).a.toNat % 16 ∧ 9 ≤ (s 0x9A false false).a.toNat / 16) ∧ (s 0x73 true false).flags.auxCarry = true ∧
    ¬9 < (s 0x73 true false).a.toNat / 16 ∧ 9 < (s 0xA0 false false).a.toNat / 16 ∧ ¬9 < (s 0x99 false false).a.toNat % 16 := by decide
theorem test_witness_DaaGivesTheDecimalSum :
    let v : Byte := 0x99
    let s : State := { base with a := 0x99, flags := fl 0x01 }
    s.a.toNat % 16 ≤ 9 ∧ s.a.toNat / 16 ≤ 9 ∧ v.toNat % 16 ≤ 9 ∧ v.toNat / 16 ≤ 9 := by decide
theorem test_witness_RotatesAndComplements : (6 : Nat) < 7 ∧ (7 : Nat) < 8 := by decide
/-- Both branches of a condition. -/
theorem test_witness_conditional_branches : condTrue .nz base.flags = true ∧ condTrue .z base.flags = false := by decide
theorem test_witness_StackRoundTrip :
    let s : State := { base with sp := 0x3000 }
    regionOf (s.sp - 1#16) = .ram ∧ regionOf (s.sp - 2#16) = .ram := by decide
theorem test_witness_InReadsThePolledPorts : polledValue 0x00 base = some 0x00 ∧ polledValue 0x01 base = some 0x04 ∧
    polledValue 0x03 base = some 0x00 ∧ polledValue 0x04 base = some 0x00 ∧ polledValue 0x0E base = some 0x85 := by decide
theorem test_witness_InReadsTheDataPorts :
    (base.chan base.uart.sel).fifo = [] ∧ (midRun.chan midRun.uart.sel).fifo = 0x42 :: [] ∧
    (0x05 : Byte) ∉ [0x00#8, 0x01#8, 0x02#8, 0x03#8, 0x04#8, 0x06#8, 0x0E#8] := by decide
theorem test_witness_OutDrivesTheBusPorts :
    (0x04 : Byte) ∉ [0x00#8, 0x01#8, 0x02#8, 0x03#8, 0x05#8, 0x06#8, 0x07#8, 0x0E#8, 0x11#8] := by decide
theorem test_witness_OutDrivesTheUart :
    ({ base with a := 0x08 } : State).a.toNat = 2 ^ Chan.c3.toNat ∧
    (∀ j : Chan, ({ base with a := 0x10 } : State).a.toNat ≠ 2 ^ j.toNat) ∧
    (base.chan base.uart.sel).txReady = true ∧ (midRun.chan midRun.uart.sel).txReady = false :=
  ⟨by decide, fun j => by cases j <;> decide, by decide, by decide⟩
/-- For the promises over all instructions: one of each kind takes a next state. -/
theorem test_witness_exec : (∃ t, exec .addB base = .next t) ∧ (∃ t, exec .ei base = .next t ∧ t.inte ≠ base.inte) ∧
    ∃ t, exec .daa { base with a := 0x9A } = .next t ∧ t.flags.carry ≠ base.flags.carry :=
  ⟨⟨_, rfl⟩, ⟨_, rfl, by decide⟩, _, rfl, by decide⟩
theorem test_witness_OnlyListedBytesAreStored :
    let s : State := { base with b := 0x12, ram := [(0x2EFF, 0x00)] }
    ∃ t, exec .pushB s = .next t ∧ t.peek 0x2EFF ≠ s.peek 0x2EFF := ⟨_, rfl, by decide⟩
theorem test_witness_OnlyPortsReachTheCard : ∀ port, Instr.addB ≠ .inPort port ∧ Instr.addB ≠ .outPort port :=
  fun _ => ⟨nofun, nofun⟩
/-- Key codes with the same low byte; a filtered byte and one that is not; a full FIFO and one that is not. -/
theorem test_witness_ReceivedByteIsQueued :
    0x141 % 256 = (0x41 : Byte).toNat ∧ ((0x13 : Byte) = 0x11#8 ∨ (0x13 : Byte) = 0x13#8) ∧
    ¬((0x12 : Byte) = 0x11#8 ∨ (0x12 : Byte) = 0x13#8) ∧ (List.replicate 2048 (0x07 : Byte)).length = 2048 ∧
    (List.replicate 2047 (0x07 : Byte)).length ≠ 2048 := by
  simp only [List.length_replicate]
  decide
/-- A batch that just fits, one that is one byte too long, and a FIFO that is full. -/
theorem test_witness_BatchIsQueued :
    let fifo : List Byte := List.replicate 2047 0x07
    fifo.length ≤ 2048 ∧ fifo.length + [(0x09 : Byte)].length ≤ 2048 ∧ 2048 < fifo.length + [(0x09 : Byte), 0x09].length ∧
    (List.replicate 2048 (0x07 : Byte)).length ≤ 2048 := by
  simp only [List.length_replicate]
  decide
theorem test_witness_FifoKeepsTheNewest : (midRun.chan .c0).fifo.length ≤ 2048 := by decide
/-- `attach` at the last channel offered and at the first refused. -/
theorem test_witness_HostOperations : Chan.c0.toNat < base.cfg.numTerms.toNat ∧ base.cfg.numTerms.toNat ≤ Chan.c1.toNat := by decide
theorem test_witness_StrobesLatchOrFault :
    let s (selected obs cbs : Bool) : State :=
      { base with bus := { base.bus with selected := selected, obsSeen := obs, cbsSeen := cbs } }
    (s false false false).bus.selected = false ∧
    ((s true true false).bus.selected = true ∧ (s true true false).bus.obsSeen = true) ∧
    ((s true false true).bus.selected = true ∧ (s true false true).bus.cbsSeen = true) ∧
    (s true false false).bus.selected = true ∧ (s true false false).bus.obsSeen = false ∧ (s true false false).bus.cbsSeen = false := by
  decide
/-- The last clause, from a strobe of either kind. -/
theorem test_witness_StrobesLatchOrFault_read :
    let s : State := { base with bus := { base.bus with selected := true } }
    s.bus.selected = true ∧ s.bus.obsSeen = false ∧ s.bus.cbsSeen = false ∧
    (∃ t, envStep (.strobeObs 0x41) s = .next t) ∧ ∃ t, envStep (.strobeCbs 0x41) s = .next t :=
  ⟨rfl, rfl, rfl, ⟨_, rfl⟩, _, rfl⟩
/-- Each clause at the ends of its range: not selected; offset 0; offsets 1 and 3; offsets 4 and 7, free and with a strobe. -/
theorem test_witness_DevReadyFollowsTheTable :
    let s (selected obs : Bool) (n : BitVec 3) : State :=
      { base with bus := { base.bus with selected := selected, obsSeen := obs, ioOffset := n, rbi := 0x00 } }
    (s false false 1).devReady = false ∧ (s true false 0).devReady = true ∧ (s true true 0).devReady = true ∧
    (s true false 1).devReady = true ∧ (s true true 3).devReady = true ∧ (s true false 4).devReady = true ∧
    (s true false 7).devReady = true ∧ (s true true 4).devReady = false ∧ (s true true 7).devReady = false := by decide

end Sys2Proof.Machine
end

/-! The data transfer instructions (40_data_transfer.md): their opcode bytes, the ways they end (a register write, a byte
read into a register, a pair write, two bytes read into HL or stored from it, the exchange), and the statements O24 to O28. -/

namespace Sys2Proof.Machine

/-! ### Opcode bytes (30_encoding.md R92 to R97) -/

theorem encode_movRR (dst src : Reg8) : encode (.movRR dst src) = [0b01#2 ++ dst.code ++ src.code] := by
  cases dst <;> cases src <;> rfl
theorem encode_movRM (dst : Reg8) : encode (.movRM dst) = [0b01#2 ++ dst.code ++ 0b110#3] := by cases dst <;> rfl
theorem encode_movMR (src : Reg8) : encode (.movMR src) = [0b01#2 ++ 0b110#3 ++ src.code] := by cases src <;> rfl
theorem encode_mviR (dst : Reg8) (imm : Byte) : encode (.mviR dst imm) = [0b00#2 ++ dst.code ++ 0b110#3, imm] := by
  cases dst <;> rfl
theorem encode_lxi (p : RegPair) (imm : Word) :
    encode (.lxi p imm) = [0b00#2 ++ p.code ++ 0b0001#4, loByte imm, hiByte imm] := by cases p <;> rfl
theorem encode_ldax (p : IndirectPair) : encode (.ldax p) = [0b00#2 ++ p.toPair.code ++ 0b1010#4] := by cases p <;> rfl
theorem encode_stax (p : IndirectPair) : encode (.stax p) = [0b00#2 ++ p.toPair.code ++ 0b0010#4] := by cases p <;> rfl

/-! ### How a data transfer ends -/

/-- A register write: what it leaves in the register and its frame. -/
theorem setReg_done (r : Reg8) (v : Byte) (cycles : Nat) (s : State) :
    let t : State := { s.setReg r v with opCycles := cycles }
    t.reg r = v ∧ RegsSameBut [r] s t ∧ StackPcFlagsSame s t ∧ InstrFrame [] [] cycles s t := by
  refine ⟨s.reg_setReg_self r v, regsSameBut_setReg r v s, ⟨?_, ?_, ?_⟩, ?_⟩
  · exact s.setReg_sp r v
  · exact s.setReg_pc r v
  · exact s.setReg_flags r v
  · cases r <;> exact instrFrame_registers ⟨_, _, _, _, _, _, _, _, _, _, rfl⟩

/-- A byte read into a register: the byte or the draw it leaves there and its frame. `LDA` and `LDAX` are the case of A. -/
theorem memRead_setReg_done (r : Reg8) (a : Word) (cycles : Nat) (s : State) :
    let t : State := { (memRead a s).2.setReg r (memRead a s).1 with opCycles := cycles }
    t.reg r = readValue [] a s ∧ RegsSameBut [r] s t ∧ StackPcFlagsSame s t ∧ InstrFrame [a] [] cycles s t := by
  simp only [memRead_eq]
  set u : State := { s with
    fault := (s.fault <|> (readFaults [a]).head?), draws := s.draws + (readFaults [a]).length }
  obtain ⟨hreg, hregs, ⟨hsp, hpc, hflags⟩, -⟩ := setReg_done r (readValue [] a s) cycles u
  refine ⟨hreg, hregs, ⟨hsp, hpc, hflags⟩, ?_⟩
  cases r <;> exact instrFrame_reads [a] ⟨_, _, _, _, _, _, _, _, _, _, rfl⟩

/-- A pair write: what it leaves in the pair, in the other pairs and in A, and its frame. -/
theorem setPair_done (p : RegPair) (v : Word) (cycles : Nat) (s : State) :
    let t : State := { s.setPair p v with opCycles := cycles }
    t.pair p = v ∧ (∀ q, q ≠ p → t.pair q = s.pair q) ∧ t.a = s.a ∧ t.pc = s.pc ∧ t.flags = s.flags ∧
    InstrFrame [] [] cycles s t := by
  refine ⟨pair_setPair_self p v s, fun q hq => pair_setPair_ne hq v s, ?_, s.setPair_pc p v, s.setPair_flags p v, ?_⟩
  · cases p <;> rfl
  · cases p <;> exact instrFrame_registers ⟨_, _, _, _, _, _, _, _, _, _, rfl⟩

/-- Two bytes read into L and H: each is the byte or the draw of its own address, and the frame. -/
theorem memRead16_setHL_done (a : Word) (cycles : Nat) (s : State) :
    let t : State := { (memRead16 a s).2.setPair .hl (memRead16 a s).1 with opCycles := cycles }
    t.l = readValue [] a s ∧ t.h = readValue [a] (a + 1#16) s ∧ RegsSameBut [.h, .l] s t ∧ StackPcFlagsSame s t ∧
    InstrFrame [a, a + 1#16] [] cycles s t := by
  simp only [memRead16_eq]
  refine ⟨loByte_readValue16 a s, hiByte_readValue16 a s, ?_, ⟨rfl, rfl, rfl⟩,
    instrFrame_reads [a, a + 1#16] ⟨_, _, _, _, _, _, _, _, _, _, rfl⟩⟩
  intro r hr
  cases r with
  | b | c | d | e | a => rfl
  | h | l => simp at hr

/-- HL stored at two consecutive addresses, L at the first. -/
theorem memWrite16_hl (a : Word) (s : State) : memWrite16 a s.hl s = memWrite (a + 1#16) s.h (memWrite a s.l s) := by
  simp only [memWrite16, State.hl, hiByte_joinBytes, loByte_joinBytes]

/-- The exchange of DE and HL in terms of its four register values. -/
theorem exec_xchg (s : State) :
    exec .xchg s = .next { s with
      d := hiByte s.hl, e := loByte s.hl, h := hiByte s.de, l := loByte s.de, opCycles := 4 } := rfl

/-! ### The statements -/

/-- Settles O24: a register write. -/
theorem movCopiesTheSource : Obligations.MovCopiesTheSource := by
  intro dst src s
  exact ⟨encode_movRR dst src, _, exec_movRR dst src s, setReg_done dst (s.reg src) 5 s⟩

/-- Settles O25: each is a byte read into a register, at an address formed before the read. -/
theorem loadsReadTheByte : Obligations.LoadsReadTheByte := by
  intro s
  refine ⟨fun dst => ?_, fun addr => ?_, fun p => ?_⟩
  · exact ⟨encode_movRM dst, _, exec_movRM dst s, memRead_setReg_done dst s.hl 7 s⟩
  · exact ⟨rfl, _, rfl, memRead_setReg_done .a addr 13 s⟩
  · exact ⟨encode_ldax p, _, exec_ldax p s, memRead_setReg_done .a (s.pair p.toPair) 7 s⟩

/-- Settles O26: each is one byte store. -/
theorem storesWriteTheByte : Obligations.StoresWriteTheByte := by
  intro s
  refine ⟨fun src => ?_, fun imm => ?_, fun addr => ?_, fun p => ?_⟩
  · exact ⟨encode_movMR src, _, exec_movMR src s, memWrite_done s.hl (s.reg src) 7 s⟩
  · exact ⟨rfl, _, rfl, memWrite_done s.hl imm 10 s⟩
  · exact ⟨rfl, _, rfl, memWrite_done addr s.a 13 s⟩
  · exact ⟨encode_stax p, _, exec_stax p s, memWrite_done (s.pair p.toPair) s.a 7 s⟩

/-- Settles O27: a register write, a pair write, and the exchange of two pairs. -/
theorem immediatesAndExchangeLoadRegisters : Obligations.ImmediatesAndExchangeLoadRegisters := by
  intro s
  refine ⟨fun dst imm => ?_, fun p imm => ?_, rfl, _, exec_xchg s, ?_, ?_, ?_, ⟨rfl, rfl, rfl⟩, ?_⟩
  · exact ⟨encode_mviR dst imm, _, exec_mviR dst imm s, setReg_done dst imm 7 s⟩
  · exact ⟨encode_lxi p imm, _, exec_lxi p imm s, setPair_done p imm 10 s⟩
  · exact joinBytes_hiByte_loByte s.de
  · exact joinBytes_hiByte_loByte s.hl
  · intro r hr
    cases r with
    | b | c | a => rfl
    | d | e | h | l => simp at hr
  · exact instrFrame_registers ⟨_, _, _, _, _, _, _, _, _, _, rfl⟩

/-- Settles O28: a 16-bit load, and two byte stores at addresses that differ, the wrap at 0xFFFF included (`ne_add_one`). -/
theorem directPairTransfers : Obligations.DirectPairTransfers := by
  intro addr s
  have hshld : exec (.shld addr) s = .next { memWrite (addr + 1#16) s.h (memWrite addr s.l s) with opCycles := 16 } := by
    rw [← memWrite16_hl]; rfl
  refine ⟨rfl, ⟨_, rfl, memRead16_setHL_done addr 16 s⟩, rfl, _, hshld, ?_⟩
  exact memWrite_two_done (ne_add_one addr) s.l s.h 16 s

end Sys2Proof.Machine

/-! The increments, decrements, pair arithmetic and DAA (41_arithmetic.md): their opcode bytes, the ways they end (a register
and the flags, M and the flags, HL and the flags), the cases of the decimal correction, and the statements O32 to O35. -/

namespace Sys2Proof.Machine

/-! ### Opcode bytes (30_encoding.md R92 to R95) -/

theorem encode_inrR (r : Reg8) : encode (.inrR r) = [0b00#2 ++ r.code ++ 0b100#3] := by cases r <;> rfl
theorem encode_dcrR (r : Reg8) : encode (.dcrR r) = [0b00#2 ++ r.code ++ 0b101#3] := by cases r <;> rfl
theorem encode_inx (p : RegPair) : encode (.inx p) = [0b00#2 ++ p.code ++ 0b0011#4] := by cases p <;> rfl
theorem encode_dcx (p : RegPair) : encode (.dcx p) = [0b00#2 ++ p.code ++ 0b1011#4] := by cases p <;> rfl
theorem encode_dad (p : RegPair) : encode (.dad p) = [0b00#2 ++ p.code ++ 0b1001#4] := by cases p <;> rfl

/-! ### How an arithmetic instruction ends -/

/-- A write of a register and the flags: what it leaves there and its frame. DAA is the case of A. -/
theorem setReg_flags_done (r : Reg8) (v : Byte) (f : Flags) (cycles : Nat) (s : State) :
    let t : State := { s.setReg r v with flags := f, opCycles := cycles }
    t.reg r = v ∧ t.flags = f ∧ RegsSameBut [r] s t ∧ t.sp = s.sp ∧ t.pc = s.pc ∧ InstrFrame [] [] cycles s t := by
  obtain ⟨hreg, hregs, ⟨hsp, hpc, -⟩, -⟩ := setReg_done r v cycles s
  refine ⟨hreg, rfl, hregs, hsp, hpc, ?_⟩
  cases r <;> exact instrFrame_registers ⟨_, _, _, _, _, _, _, _, _, _, rfl⟩

/-- INR and DCR of a register: a result `v` with value `n` and flags `f`, with AC `ac` and CY `cy`, written back. -/
theorem stepReg_done {v : Byte} {f : Flags} {n : Nat} {ac cy : Bool}
    (h : v.toNat = n ∧ f.auxCarry = ac ∧ ShowsSzp v f ∧ f.carry = cy) (r : Reg8) (s : State) :
    let t : State := { s.setReg r v with flags := f, opCycles := 5 }
    (t.reg r).toNat = n ∧ t.flags.auxCarry = ac ∧ ShowsSzp (t.reg r) t.flags ∧ t.flags.carry = cy ∧
    RegsSameBut [r] s t ∧ t.sp = s.sp ∧ t.pc = s.pc ∧ InstrFrame [] [] 5 s t := by
  intro t
  obtain ⟨hval, hac, hszp, hcy⟩ := h
  obtain ⟨(hreg : t.reg r = v), -, hframe⟩ := setReg_flags_done r v f 5 s
  rw [hreg]
  exact ⟨hval, hac, hszp, hcy, hframe⟩

/-- INR and DCR of M: the result of `op` on the byte read at HL stored back, its flags kept also where the write faults. -/
theorem stepM_done {op : Byte → Flags → Byte × Flags} {n : Nat} {ac cy : Bool} {s : State}
    (h : (op (readValue [] s.hl s) s.flags).1.toNat = n ∧ (op (readValue [] s.hl s) s.flags).2.auxCarry = ac ∧
      ShowsSzp (op (readValue [] s.hl s) s.flags).1 (op (readValue [] s.hl s) s.flags).2 ∧
      (op (readValue [] s.hl s) s.flags).2.carry = cy) :
    let m := memRead s.hl s
    let t : State := { writeM (op m.1 m.2.flags).1 { m.2 with flags := (op m.1 m.2.flags).2 } with opCycles := 10 }
    let v := (op (readValue [] s.hl s) s.flags).1
    v.toNat = n ∧ Stored s.hl v s t ∧ t.flags.auxCarry = ac ∧ ShowsSzp v t.flags ∧ t.flags.carry = cy ∧
    RegsSameBut [] s t ∧ t.sp = s.sp ∧ t.pc = s.pc ∧ InstrFrame [s.hl] [s.hl] 10 s t := by
  obtain ⟨hval, hac, hszp, hcy⟩ := h
  obtain ⟨hstored, hflags, hframe⟩ := modifyM_done op s
  exact ⟨hval, hstored, hflags ▸ hac, hflags ▸ hszp, hflags ▸ hcy, hframe⟩

/-- A write of HL and the flags: what it leaves there and its frame. -/
theorem setHL_flags_done (v : Word) (f : Flags) (cycles : Nat) (s : State) :
    let t : State := { s.setPair .hl v with flags := f, opCycles := cycles }
    t.hl = v ∧ t.flags = f ∧ RegsSameBut [.h, .l] s t ∧ t.sp = s.sp ∧ t.pc = s.pc ∧ InstrFrame [] [] cycles s t := by
  refine ⟨pair_setPair_self .hl v s, rfl, ?_, rfl, rfl, instrFrame_registers ⟨_, _, _, _, _, _, _, _, _, _, rfl⟩⟩
  intro r hr
  cases r with
  | b | c | d | e | a => rfl
  | h | l => simp at hr

/-! ### The corrections of DAA (R160) -/

/-- The correction by its two parts, each applied or not. -/
theorem daaCorrection_cases (a : Byte) (f : Flags) :
    let low := f.auxCarry = true ∨ 9 < a.toNat % 16
    let high := f.carry = true ∨ 9 < a.toNat / 16 ∨ (9 ≤ a.toNat / 16 ∧ 9 < a.toNat % 16)
    (low ∧ high → daaCorrection a f = 0x66) ∧ (low ∧ ¬high → daaCorrection a f = 0x06) ∧
    (¬low ∧ high → daaCorrection a f = 0x60) ∧ (¬low ∧ ¬high → daaCorrection a f = 0x00) := by
  intro low high
  refine ⟨fun h => ?_, fun h => ?_, fun h => ?_, fun h => ?_⟩ <;> obtain ⟨hlow, hhigh⟩ := h
  · rw [daaCorrection, if_pos hlow, if_pos hhigh]
  · rw [daaCorrection, if_pos hlow, if_neg hhigh]
  · rw [daaCorrection, if_neg hlow, if_pos hhigh]
  · rw [daaCorrection, if_neg hlow, if_neg hhigh]

/-! ### The statements -/

/-- Settles O32: `inr8` and `dcr8` written back to their register. -/
theorem incrementDecrementRegister : Obligations.IncrementDecrementRegister := by
  intro r s
  refine ⟨encode_inrR r, ⟨_, exec_inrR r s, ?_⟩, encode_dcrR r, _, exec_dcrR r s, ?_⟩
  · exact stepReg_done (inr8_spec (s.reg r) s.flags) r s
  · exact stepReg_done (dcr8_spec (s.reg r) s.flags) r s

/-- Settles O33: `inr8` and `dcr8` of the byte read at HL, stored back there. -/
theorem incrementDecrementMemory : Obligations.IncrementDecrementMemory := by
  intro s old
  refine ⟨rfl, ⟨_, (inr8 old s.flags).1, rfl, ?_⟩, rfl, _, (dcr8 old s.flags).1, rfl, ?_⟩
  · exact stepM_done (inr8_spec old s.flags)
  · exact stepM_done (dcr8_spec old s.flags)

/-- Settles O34: INX and DCX are pair writes; DAD writes the sum of `add16` to HL and its carry to CY. -/
theorem pairArithmetic : Obligations.PairArithmetic := by
  intro p s
  refine ⟨encode_inx p, ⟨_, exec_inx p s, ?_⟩, encode_dcx p, ⟨_, exec_dcx p s, ?_⟩, encode_dad p, _, exec_dad p s, ?_⟩
  · obtain ⟨hpair, hpairs, ha, hpc, hflags, hframe⟩ := setPair_done p (s.pair p + 1#16) 5 s
    rw [hpair]
    exact ⟨BitVec.toNat_add _ _, hpairs, ha, hflags, hpc, hframe⟩
  · obtain ⟨hpair, hpairs, ha, hpc, hflags, hframe⟩ := setPair_done p (s.pair p - 1#16) 5 s
    rw [hpair]
    exact ⟨by bv_omega, hpairs, ha, hflags, hpc, hframe⟩
  · obtain ⟨hsum, hcarry⟩ := add16_spec s.hl (s.pair p) s.flags
    obtain ⟨hhl, -, hframe⟩ :=
      setHL_flags_done (add16 s.hl (s.pair p) s.flags).1 (add16 s.hl (s.pair p) s.flags).2 10 s
    rw [hhl]
    exact ⟨hsum, hcarry, hframe⟩

/-- Settles O35: the correction is `daaCorrection`, fixed by `daaCorrection_cases`, and `decimalAdjust` adds it to A. -/
theorem daaCorrects : Obligations.DaaCorrects := by
  intro s lo hi low high
  obtain ⟨hboth, hlow, hhigh, hnone⟩ := daaCorrection_cases s.a s.flags
  obtain ⟨hval, hac, hcy, hszp⟩ := decimalAdjust_spec s.a s.flags
  obtain ⟨-, -, hframe⟩ :=
    setReg_flags_done .a (decimalAdjust s.a s.flags).1 (decimalAdjust s.a s.flags).2 4 s
  exact ⟨rfl, _, daaCorrection s.a s.flags, rfl, hboth, hlow, hhigh, hnone, hval, hac, hcy, hszp, hframe⟩

end Sys2Proof.Machine

/-! The rotates, the complements and STC (42_logical.md): how a write of A and CY ends, the bits of the complement, and the
statement O37. -/

namespace Sys2Proof.Machine

/-- A write of A and CY in 4 cycles: the other flags, the other registers and the rest of the machine stay. CMC and STC are
the case where A is written with its own value, CMA the case where CY is. -/
theorem setA_carry_done (v : Byte) (cy : Bool) (s : State) :
    let t : State := { s with a := v, flags := { s.flags with carry := cy }, opCycles := 4 }
    t.flags = { s.flags with carry := cy } ∧ RegsSameBut [.a] s t ∧ t.sp = s.sp ∧ t.pc = s.pc ∧ InstrFrame [] [] 4 s t :=
  (setReg_flags_done .a v { s.flags with carry := cy } 4 s).2

/-- Each of the 8 bits of the complement of a byte. -/
theorem complement_bits (a : Byte) (n : Nat) (hn : n < 8) : (~~~a).getLsbD n = !a.getLsbD n := by
  rw [BitVec.getLsbD_not, decide_eq_true hn, Bool.true_and]

/-- Settles O37: each writes A and CY (`setA_carry_done`); the bits of A are `rotateLeft_bits`, `rotateRight_bits` and
`complement_bits`. -/
theorem rotatesAndComplements : Obligations.RotatesAndComplements := by
  intro s only
  obtain ⟨hrlcIn, hrlc⟩ := rotateLeft_bits s.a (s.a.getLsbD 7)
  obtain ⟨hrrcIn, hrrc⟩ := rotateRight_bits s.a (s.a.getLsbD 0)
  obtain ⟨hralIn, hral⟩ := rotateLeft_bits s.a s.flags.carry
  obtain ⟨hrarIn, hrar⟩ := rotateRight_bits s.a s.flags.carry
  refine ⟨rfl, ⟨_, rfl, ?rlc, hrlcIn, hrlc⟩, rfl, ⟨_, rfl, ?rrc, hrrcIn, hrrc⟩, rfl, ⟨_, rfl, ?ral, hralIn, hral⟩,
    rfl, ⟨_, rfl, ?rar, hrarIn, hrar⟩, rfl, ⟨_, rfl, ?cma, complement_bits s.a⟩, rfl, ⟨_, rfl, ?cmc, rfl⟩,
    rfl, _, rfl, ?stc, rfl⟩
  case rlc | ral => exact setA_carry_done _ (s.a.getLsbD 7) s
  case rrc | rar => exact setA_carry_done _ (s.a.getLsbD 0) s
  case cma => exact setA_carry_done (~~~s.a) s.flags.carry s
  case cmc => exact setA_carry_done s.a (!s.flags.carry) s
  case stc => exact setA_carry_done s.a true s

end Sys2Proof.Machine

/-! The branches (43_branch.md): the opcode bytes of the conditional rows, how a jump, a return and a branch not taken end (a
call ends as `push16_done` says), what a conditional branch does by its condition, and the statements O38 to O40. -/

namespace Sys2Proof.Machine

/-! ### Opcode bytes (30_encoding.md R96) -/

theorem encode_jumpCond (cond : Cond) (addr : Word) :
    encode (.jumpCond cond addr) = [0b11#2 ++ cond.code ++ 0b010#3, loByte addr, hiByte addr] := by cases cond <;> rfl
theorem encode_callCond (cond : Cond) (addr : Word) :
    encode (.callCond cond addr) = [0b11#2 ++ cond.code ++ 0b100#3, loByte addr, hiByte addr] := by cases cond <;> rfl
theorem encode_retCond (cond : Cond) : encode (.retCond cond) = [0b11#2 ++ cond.code ++ 0b000#3] := by cases cond <;> rfl

/-! ### How a branch ends -/

/-- A write of PC: where it goes and its frame. A branch not taken is the case where PC is written with its own value. -/
theorem jump_done (target : Word) (cycles : Nat) (s : State) :
    let t : State := { s with pc := target, opCycles := cycles }
    t.pc = target ∧ RegsSameBut [] s t ∧ t.flags = s.flags ∧ t.sp = s.sp ∧ InstrFrame [] [] cycles s t :=
  ⟨rfl, fun r _ => by cases r <;> rfl, rfl, rfl, instrFrame_registers ⟨_, _, _, _, _, _, _, _, _, _, rfl⟩⟩

/-- A branch not taken leaves everything but the cycle count. -/
theorem notTaken_done (cycles : Nat) (s : State) :
    let t : State := { s with opCycles := cycles }
    RegsSameBut [] s t ∧ StackPcFlagsSame s t ∧ InstrFrame [] [] cycles s t := by
  obtain ⟨hpc, hregs, hflags, hsp, hframe⟩ := jump_done s.pc cycles s
  exact ⟨hregs, ⟨hsp, hpc, hflags⟩, hframe⟩

/-- A return from the stack: each half of PC is the byte or the draw of its own address, and the frame. -/
theorem returnFromStack_done (cycles : Nat) (s : State) :
    let t : State := { returnFromStack s with opCycles := cycles }
    t.pc = readValue16 s.sp s ∧ t.sp = s.sp + 2#16 ∧ RegsSameBut [] s t ∧ t.flags = s.flags ∧
    InstrFrame [s.sp, s.sp + 1#16] [] cycles s t := by
  simp only [returnFromStack, pop16_eq]
  exact ⟨trivial, trivial, fun r _ => by cases r <;> rfl, trivial,
    instrFrame_reads [s.sp, s.sp + 1#16] ⟨_, _, _, _, _, _, _, _, _, _, rfl⟩⟩

/-! ### What a conditional branch does, by its condition (R96) -/

/-- A conditional jump writes PC either way, with its own value when it is not taken. -/
theorem exec_jumpCond_eq (cond : Cond) (addr : Word) (s : State) :
    exec (.jumpCond cond addr) s =
      .next { s with pc := if condTrue cond s.flags then addr else s.pc, opCycles := 10 } := by
  rw [exec_jumpCond, jumpIf, condHolds_eq_condTrue]
  split <;> rfl

section Conditional
variable {cond : Cond} {s : State}

theorem exec_callCond_taken (h : condTrue cond s.flags = true) (addr : Word) :
    exec (.callCond cond addr) s = .next { push16 s.pc s with pc := addr, opCycles := 17 } := by
  rw [exec_callCond, callIf, condHolds_eq_condTrue, if_pos h]; rfl

theorem exec_callCond_notTaken (h : ¬condTrue cond s.flags = true) (addr : Word) :
    exec (.callCond cond addr) s = .next { s with opCycles := 11 } := by
  rw [exec_callCond, callIf, condHolds_eq_condTrue, if_neg h]; rfl

theorem exec_retCond_taken (h : condTrue cond s.flags = true) :
    exec (.retCond cond) s = .next { returnFromStack s with opCycles := 11 } := by
  rw [exec_retCond, returnIf, condHolds_eq_condTrue, if_pos h]; rfl

theorem exec_retCond_notTaken (h : ¬condTrue cond s.flags = true) :
    exec (.retCond cond) s = .next { s with opCycles := 5 } := by
  rw [exec_retCond, returnIf, condHolds_eq_condTrue, if_neg h]; rfl

end Conditional

/-- `RST n` is a call to 8 * n in 11 cycles (R228). -/
theorem exec_rst_eq (n : BitVec 3) (s : State) :
    exec (.rst n) s = .next { push16 s.pc s with pc := BitVec.ofNat 16 (8 * n.toNat), opCycles := 11 } := by
  rw [exec_rst, restart, restartTarget_eq]; rfl

/-! ### The statements -/

/-- Settles O38: each is a write of PC (`jump_done`). -/
theorem jumpsGoToTheAddress : Obligations.JumpsGoToTheAddress := by
  intro s
  refine ⟨fun addr => ?_, fun cond addr => ?_, rfl, _, rfl, jump_done s.hl 5 s⟩
  · exact ⟨rfl, _, rfl, jump_done addr 10 s⟩
  · exact ⟨encode_jumpCond cond addr, _, exec_jumpCond_eq cond addr s, jump_done _ 10 s⟩

/-- Settles O39: a call taken is a push of PC that goes to its target (`push16_done`). -/
theorem callsPushTheReturnAddress : Obligations.CallsPushTheReturnAddress := by
  intro s called
  refine ⟨fun addr => ?_, fun cond addr => ⟨encode_callCond cond addr, ?_⟩, fun n => ?_⟩
  · exact ⟨rfl, _, rfl, push16_done s.pc addr 17 s⟩
  · by_cases h : condTrue cond s.flags = true
    · refine ⟨_, exec_callCond_taken h addr, ?_⟩
      rw [if_pos h]
      exact push16_done s.pc addr 17 s
    · refine ⟨_, exec_callCond_notTaken h addr, ?_⟩
      rw [if_neg h]
      exact notTaken_done 11 s
  · exact ⟨encode_rst n, _, exec_rst_eq n s, push16_done s.pc _ 11 s⟩

/-- Settles O40: a return taken is a pop into PC (`returnFromStack_done`). -/
theorem returnsPopTheReturnAddress : Obligations.ReturnsPopTheReturnAddress := by
  intro s returned
  refine ⟨rfl, ⟨_, rfl, returnFromStack_done 10 s⟩, fun cond => ⟨encode_retCond cond, ?_⟩⟩
  by_cases h : condTrue cond s.flags = true
  · refine ⟨_, exec_retCond_taken h, ?_⟩
    rw [if_pos h]
    exact returnFromStack_done 11 s
  · refine ⟨_, exec_retCond_notTaken h, ?_⟩
    rw [if_neg h]
    exact notTaken_done 5 s

end Sys2Proof.Machine

/-! The stack instructions (44_stack_io_control.md): their opcode bytes, how they end (a pair written from the stack, reads
followed by writes), and the statements O41, O42 and O44. -/

namespace Sys2Proof.Machine

/-! ### Opcode bytes (30_encoding.md R92, R95) -/

theorem encode_push (p : StackPair) : encode (.push p) = [0b11#2 ++ p.code ++ 0b0101#4] := by cases p <;> rfl
theorem encode_pop (p : StackPair) : encode (.pop p) = [0b11#2 ++ p.code ++ 0b0001#4] := by cases p <;> rfl

/-! ### How a push and a pop end -/

/-- PUSH is a push of the pair that goes nowhere else (`push16_done` with PC its own value). -/
theorem exec_push_eq (p : StackPair) (s : State) :
    exec (.push p) s = .next { push16 (s.stackPair p) s with pc := s.pc, opCycles := 11 } := by
  obtain ⟨f, m, h⟩ := push16_frame (s.stackPair p) s
  rw [exec_push, pushPair, h, State.done_eq]

/-- The general registers a pop of the pair writes (R242, R243). -/
def poppedRegisters : StackPair → List Reg8
  | .bc => [.b, .c]
  | .de => [.d, .e]
  | .hl => [.h, .l]
  | .psw => [.a]

theorem regsSameBut_setStackPair (p : StackPair) (v : Word) (s : State) :
    RegsSameBut (poppedRegisters p) s (s.setStackPair p v) := by
  intro r hr
  cases p with
  | bc => cases r with
    | b | c => simp [poppedRegisters] at hr
    | d | e | h | l | a => rfl
  | de => cases r with
    | d | e => simp [poppedRegisters] at hr
    | b | c | h | l | a => rfl
  | hl => cases r with
    | h | l => simp [poppedRegisters] at hr
    | b | c | d | e | a => rfl
  | psw => cases r with
    | a => simp [poppedRegisters] at hr
    | b | c | d | e | h | l => rfl

/-- The state after the two reads of a pop: the faults and the draws recorded, `SP` moved by 2, nothing written yet. -/
def popped (s : State) : State :=
  { s with
    fault := (s.fault <|> (readFaults [s.sp, s.sp + 1#16]).head?)
    draws := s.draws + (readFaults [s.sp, s.sp + 1#16]).length
    sp := s.sp + 2#16 }

/-- POP writes the 16-bit value at `SP` to the pair. -/
theorem exec_pop_eq (p : StackPair) (s : State) :
    exec (.pop p) s = .next { (popped s).setStackPair p (readValue16 s.sp s) with opCycles := 10 } := by
  rw [exec_pop, popPair, pop16_eq, State.done_eq]; rfl

/-- What a pop leaves beside the registers and flags of its pair, and its frame. -/
theorem pop_done (p : StackPair) (v : Word) (cycles : Nat) (s : State) :
    let t : State := { (popped s).setStackPair p v with opCycles := cycles }
    t.sp = s.sp + 2#16 ∧ t.pc = s.pc ∧ RegsSameBut (poppedRegisters p) s t ∧ InstrFrame [s.sp, s.sp + 1#16] [] cycles s t := by
  refine ⟨(popped s).setStackPair_sp p v, (popped s).setStackPair_pc p v, regsSameBut_setStackPair p v (popped s), ?_⟩
  cases p <;> exact instrFrame_reads _ ⟨_, _, _, _, _, _, _, _, _, _, rfl⟩

/-- The flag byte after POP PSW: the ignored bits of the byte popped are forced again (R242). -/
theorem flagBits_flagsOfByte (v : Byte) : flagBits (flagsOfByte v) = (v &&& 0xD5#8) ||| 0x02#8 := by
  have : ∀ v : Byte, flagBits (flagsOfByte v) = (v &&& 0xD5#8) ||| 0x02#8 := by decide
  exact this v

/-! ### Reads followed by writes -/

/-- The record of reads and the record of the writes after them make one record. -/
theorem Recorded.then_writes {reads writes : List Word} {s u t : State} (hr : Recorded reads [] s u)
    (hw : Recorded [] writes u t) : Recorded reads writes s t := by
  obtain ⟨hrFault, hrDraws⟩ := hr
  obtain ⟨hwFault, hwDraws⟩ := hw
  constructor
  · rw [hwFault, hrFault, orElse_assoc_fault, head?_append_orElse]
    simp
  · rw [hwDraws, hrDraws]
    simp

/-- The frame of reads and the frame of the writes after them make one frame. -/
theorem InstrFrame.then_writes {reads writes : List Word} {m n : Nat} {s u t : State} (hr : InstrFrame reads [] m s u)
    (hw : InstrFrame [] writes n u t) : InstrFrame reads writes n s t where
  memory a ha := (hw.memory a ha).trans (hr.memory a List.not_mem_nil)
  record := hr.record.then_writes hw.record
  control :=
    { inte := hw.control.inte.trans hr.control.inte
      eiShadow := hw.control.eiShadow.trans hr.control.eiShadow
      halted := hw.control.halted.trans hr.control.halted
      intReq := hw.control.intReq.trans hr.control.intReq
      intVec := hw.control.intVec.trans hr.control.intVec
      cyc := hw.control.cyc.trans hr.control.cyc }
  card :=
    { bus := hw.card.bus.trans hr.card.bus
      uart := hw.card.uart.trans hr.card.uart
      sched := hw.card.sched.trans hr.card.sched
      trace := hw.card.trace.trans hr.card.trace
      cfg := hw.card.cfg.trans hr.card.cfg }
  cycles := hw.cycles

/-- What is stored after reads is stored with respect to the state before them. -/
theorem Stored.after_reads {reads : List Word} {n : Nat} {a : Word} {v : Byte} {s u t : State}
    (hr : InstrFrame reads [] n s u) (h : Stored a v u t) : Stored a v s t := by
  unfold Stored at h ⊢
  rw [h, hr.memory a List.not_mem_nil]

/-- A byte write and a pair write do not meet. -/
theorem setPair_memWrite (p : RegPair) (w : Word) (a : Word) (v : Byte) (s : State) :
    (memWrite a v s).setPair p w = memWrite a v (s.setPair p w) := by
  cases h : regionOf a with
  | rom => rw [memWrite_rom h, memWrite_rom h]; cases p <;> rfl
  | ram => rw [memWrite_ram h, memWrite_ram h]; cases p <;> rfl
  | unmapped => rw [memWrite_unmapped h, memWrite_unmapped h]; cases p <;> rfl

/-- XTHL as a 16-bit load of HL at `SP` and then two byte stores of the old HL: HL may be written before the stores, since
these do not read it. -/
theorem exec_xthl_eq (s : State) :
    exec .xthl s = .next { memWrite s.sp s.l (memWrite (s.sp + 1#16) s.h
      ((memRead16 s.sp s).2.setPair .hl (memRead16 s.sp s).1)) with opCycles := 18 } := by
  rw [← setPair_memWrite, ← setPair_memWrite]; rfl

/-! ### The statements -/

/-- Settles O41: a push of the pair (`push16_done`), whose bytes are its two registers, or A and the flag byte. -/
theorem pushStoresThePair : Obligations.PushStoresThePair := by
  intro p s bytes
  have hbytes : hiByte (s.stackPair p) = bytes.1 ∧ loByte (s.stackPair p) = bytes.2 := by
    cases p with
    | bc => exact ⟨hiByte_joinBytes s.b s.c, loByte_joinBytes s.b s.c⟩
    | de => exact ⟨hiByte_joinBytes s.d s.e, loByte_joinBytes s.d s.e⟩
    | hl => exact ⟨hiByte_joinBytes s.h s.l, loByte_joinBytes s.h s.l⟩
    | psw =>
      refine ⟨hiByte_joinBytes s.a (flagByte s.flags), ?_⟩
      exact (loByte_joinBytes s.a (flagByte s.flags)).trans (flagByte_eq_flagBits s.flags)
  obtain ⟨hpc, hsp, hhigh, hlow, hregs, hflags, hframe⟩ := push16_done (s.stackPair p) s.pc 11 s
  rw [hbytes.1] at hhigh
  rw [hbytes.2] at hlow
  exact ⟨encode_push p, _, exec_push_eq p s, hsp, hhigh, hlow, hregs, hflags, hpc, hframe⟩

/-- Settles O42: the two bytes read are the halves of the word popped; POP PSW takes the flags from the low one. -/
theorem popLoadsThePair : Obligations.PopLoadsThePair := by
  intro p s low high
  have hhigh : hiByte (readValue16 s.sp s) = high := hiByte_readValue16 s.sp s
  have hlow : loByte (readValue16 s.sp s) = low := loByte_readValue16 s.sp s
  obtain ⟨hsp, hpc, hregs, hframe⟩ := pop_done p (readValue16 s.sp s) 10 s
  refine ⟨encode_pop p, _, exec_pop_eq p s, hsp, hpc, hframe, ?_⟩
  cases p with
  | bc | de | hl => exact ⟨hhigh, hlow, hregs, rfl⟩
  | psw =>
    rw [← hlow]
    exact ⟨hhigh, hregs, rfl, rfl, rfl, rfl, rfl, flagBits_flagsOfByte _⟩

/-- Settles O44: XTHL is a load of HL at `SP` (`memRead16_setHL_done`) followed by two stores at addresses that differ, the
wrap at 0xFFFF included; SPHL is a write of `SP`. -/
theorem stackTopExchange : Obligations.StackTopExchange := by
  intro s
  refine ⟨rfl, ⟨_, exec_xthl_eq s, ?_⟩, rfl, _, rfl, rfl, rfl, rfl, fun r _ => ?_, ?_⟩
  · obtain ⟨hl, hh, hloadRegs, ⟨hloadSp, hloadPc, hloadFlags⟩, hload⟩ :=
      memRead16_setHL_done s.sp (memRead16 s.sp s).2.opCycles s
    obtain ⟨hstoreH, hstoreL, hregs, ⟨hsp, hpc, hflags⟩, hstore⟩ :=
      memWrite_two_done (ne_add_one s.sp).symm s.h s.l 18 ((memRead16 s.sp s).2.setPair .hl (memRead16 s.sp s).1)
    have hreg (r : Reg8) := hregs r List.not_mem_nil
    exact ⟨(hreg .l).trans hl, (hreg .h).trans hh, hstoreH.after_reads hload, hstoreL.after_reads hload,
      fun r hr => (hreg r).trans (hloadRegs r hr),
      ⟨hsp.trans hloadSp, hpc.trans hloadPc, hflags.trans hloadFlags⟩, hload.then_writes hstore⟩
  · cases r <;> rfl
  · exact instrFrame_registers ⟨_, _, _, _, _, _, _, _, _, _, rfl⟩

end Sys2Proof.Machine

/-! The encoding (30_encoding.md): what the template of an opcode byte makes of operand bytes, the round trip in both
directions, the illegal bytes and the lengths; the statements O1 to O4. -/

namespace Sys2Proof

/-- The instruction a template makes of its operand bytes, low byte first (30_encoding.md R97). -/
inductive Template.Makes : Template → Instr → List Byte → Prop where
  | fixed (i : Instr) : Makes (.fixed i) i []
  | imm8 (mk : Byte → Instr) (b : Byte) : Makes (.imm8 mk) (mk b) [b]
  | imm16 (mk : Word → Instr) (w : Word) : Makes (.imm16 mk) (mk w) [loByte w, hiByte w]

/-- The first byte of an instruction's encoding. -/
def Instr.opcode (i : Instr) : Byte := (encode i).headD 0

/-- The opcode map (30_encoding.md R99) has every instruction in the place of its own opcode byte. -/
theorem templateOf_opcode_makes (i : Instr) : (templateOf i.opcode).Makes i (encode i).tail := by
  cases i <;> dsimp only [Instr.opcode, encode, List.headD, List.tail] <;>
    first | exact .fixed _ | exact .imm8 _ _ | exact .imm16 _ _

theorem encode_of_makes {op : Byte} {i : Instr} {operands : List Byte} (h : (templateOf op).Makes i operands) :
    encode i = op :: operands := by
  have henc := templateOf_encodesWith op
  generalize templateOf op = template at h henc
  cases h with
  | fixed => exact henc
  | imm8 mk b => exact henc b
  | imm16 mk w => exact henc w

theorem decode_of_makes {op : Byte} {i : Instr} {operands : List Byte} (h : (templateOf op).Makes i operands)
    (rest : List Byte) : decode (op :: operands ++ rest) = .ok (i, rest) := by
  generalize ht : templateOf op = template at h
  cases h with
  | fixed => exact decode_fixed ht rest
  | imm8 mk b => exact decode_imm8 ht b rest
  | imm16 mk w => simpa using decode_imm16 ht (loByte w) (hiByte w) rest

/-- Enough operand bytes after an opcode byte: the template takes its own and leaves the others. -/
theorem exists_makes_of_length {op : Byte} {operands : List Byte} (h : instrLength op ≤ operands.length + 1) :
    ∃ i, (templateOf op).Makes i (operands.take (instrLength op - 1)) := by
  rw [← templateOf_length] at h ⊢
  generalize templateOf op = template at h ⊢
  cases template with
  | fixed i => exact ⟨i, .fixed i⟩
  | imm8 mk =>
    match operands, h with
    | [], h => exact absurd h (by decide : ¬2 ≤ 1)
    | b :: _, _ => exact ⟨mk b, .imm8 mk b⟩
  | imm16 mk =>
    match operands, h with
    | [], h => exact absurd h (by decide : ¬3 ≤ 1)
    | [_], h => exact absurd h (by decide : ¬3 ≤ 2)
    | lo :: hi :: _, _ =>
      have hmakes := Template.Makes.imm16 mk (joinBytes hi lo)
      rw [Machine.loByte_joinBytes, Machine.hiByte_joinBytes] at hmakes
      exact ⟨_, hmakes⟩

/-- Too few operand bytes are refused by name. -/
theorem decode_truncated {op : Byte} {operands : List Byte} (h : operands.length + 1 < instrLength op) :
    decode (op :: operands) = .error (.truncated op) := by
  rw [← templateOf_length] at h
  cases ht : templateOf op with
  | fixed i => rw [ht] at h; exact absurd h (by simp [Template.length])
  | imm8 mk =>
    rw [ht] at h
    match operands, h with
    | [], _ => exact decode_imm8_short ht
  | imm16 mk =>
    rw [ht] at h
    exact decode_imm16_short ht (Nat.lt_of_succ_lt_succ h)

theorem decode_of_length {op : Byte} {operands : List Byte} (h : instrLength op ≤ operands.length + 1) :
    ∃ i, (templateOf op).Makes i (operands.take (instrLength op - 1)) ∧
      decode (op :: operands) = .ok (i, operands.drop (instrLength op - 1)) := by
  obtain ⟨i, hi⟩ := exists_makes_of_length h
  have hdecode := decode_of_makes hi (operands.drop (instrLength op - 1))
  rw [List.cons_append, List.take_append_drop] at hdecode
  exact ⟨i, hi, hdecode⟩

/-! ### The illegal bytes and the lengths -/

theorem encode_illegal (x : IllegalByte) : encode (.illegal x) = [x.toByte] := by cases x <;> rfl

theorem templateOf_illegal (x : IllegalByte) : templateOf x.toByte = .fixed (.illegal x) := by cases x <;> rfl

/-- The bytes of R101 are the twelve of the model. -/
theorem mem_illegalBytes_iff (op : Byte) :
    op ∈ [0x08#8, 0x10#8, 0x18#8, 0x20#8, 0x28#8, 0x30#8, 0x38#8, 0xCB#8, 0xD9#8, 0xDD#8, 0xED#8, 0xFD#8] ↔
      ∃ x : IllegalByte, op = x.toByte := by
  constructor
  · intro h
    simp only [List.mem_cons, List.not_mem_nil, or_false] at h
    rcases h with h | h | h | h | h | h | h | h | h | h | h | h
    exacts [⟨.x08, h⟩, ⟨.x10, h⟩, ⟨.x18, h⟩, ⟨.x20, h⟩, ⟨.x28, h⟩, ⟨.x30, h⟩, ⟨.x38, h⟩, ⟨.xCB, h⟩, ⟨.xD9, h⟩, ⟨.xDD, h⟩,
      ⟨.xED, h⟩, ⟨.xFD, h⟩]
  · rintro ⟨x, rfl⟩
    cases x <;> decide

/-- A byte's template makes an illegal instruction exactly for the illegal bytes. -/
theorem makes_illegal_iff {op : Byte} {i : Instr} {operands : List Byte} (h : (templateOf op).Makes i operands) :
    (∃ x, i = .illegal x) ↔ ∃ x : IllegalByte, op = x.toByte := by
  constructor
  · rintro ⟨x, rfl⟩
    have henc := encode_of_makes h
    rw [encode_illegal] at henc
    exact ⟨x, (List.cons.inj henc).1.symm⟩
  · rintro ⟨x, rfl⟩
    rw [templateOf_illegal] at h
    cases h
    exact ⟨x, rfl⟩

/-- The two forms of R90: the lists of opcodes and the bit fields give the same length. -/
theorem instrLength_fields (op : Byte) :
    let x := op.extractLsb' 6 2
    let y := op.extractLsb' 3 3
    let z := op.extractLsb' 0 3
    instrLength op =
      if (x = 0 ∧ z = 1 ∧ y.toNat % 2 = 0) ∨ (x = 0 ∧ z = 2 ∧ 4 ≤ y.toNat) ∨ (x = 3 ∧ (z = 2 ∨ z = 4)) ∨ op = 0xC3#8 ∨ op = 0xCD#8
      then 3
      else if (x = 0 ∧ z = 6) ∨ (x = 3 ∧ z = 6) ∨ op = 0xD3#8 ∨ op = 0xDB#8 then 2 else 1 := by
  revert op
  decide

/-! ### The statements -/

/-- Settles O1: the template of the opcode byte makes the instruction of the operand bytes the encoder writes. -/
theorem decodeInvertsEncode : Obligations.DecodeInvertsEncode := by
  intro i rest _
  have hmakes := templateOf_opcode_makes i
  rw [encode_of_makes hmakes]
  exact decode_of_makes hmakes rest

/-- Settles O2: a list that decodes has enough operand bytes, and its template makes of them what it decodes to. -/
theorem encodeInvertsDecode : Obligations.EncodeInvertsDecode := by
  intro bytes rest i h
  cases bytes with
  | nil => cases h
  | cons op operands =>
    by_cases hlen : instrLength op ≤ operands.length + 1
    · obtain ⟨j, hmakes, hdecode⟩ := decode_of_length hlen
      cases h.symm.trans hdecode
      rw [encode_of_makes hmakes, List.cons_append, List.take_append_drop]
    · rw [decode_truncated (by omega)] at h
      cases h

/-- Settles O3: decoding by the number of operand bytes, the illegal bytes by the template, the lengths by the fields. -/
theorem decodingIsTotal : Obligations.DecodingIsTotal := by
  refine ⟨rfl, fun op operands => ⟨fun hlen => ?_, decode_truncated, instrLength_fields op⟩⟩
  obtain ⟨i, hmakes, hdecode⟩ := decode_of_length hlen
  exact ⟨i, hdecode, (makes_illegal_iff hmakes).trans (mem_illegalBytes_iff op).symm⟩

/-- Settles O4: the words are evaluated. -/
theorem writtenWordsDecode : Obligations.WrittenWordsDecode :=
  ⟨rfl, rfl, rfl, rfl, rfl, rfl, rfl, rfl, rfl, rfl⟩

end Sys2Proof

/-! The invariant (10_state.md R50): its clauses about the card, taken one channel at a time; what flow control, a started
timer, a fired timer and a binding make of them; the shape of a step as a claim about its next state; the statements O11 and
O15 to O17. -/

namespace Sys2Proof.Machine

/-! ### The clauses about the card -/

/-- The clauses of the invariant about channel k. -/
structure ChannelInv (s : State) (k : Chan) : Prop where
  fifoBound : (s.chan k).fifo.length ≤ 2048
  coherent : s.timerCoherent k
  unattached : s.cfg.numTerms.toNat ≤ k.toNat → (s.chan k).endpoint = .null
  xoffNeeded : (s.chan k).xoffSent = true → (s.chan k).endpoint ≠ .null ∧ 512 < (s.chan k).fifo.length

/-- The clauses of the invariant about the card: all but those about memory, the clock, the request latch and the due
timers. Every part of a step keeps these. -/
structure CardInv (s : State) : Prop where
  channel : ∀ k, ChannelInv s k
  oneStrobe : ¬(s.bus.obsSeen = true ∧ s.bus.cbsSeen = true)
  handles : ∀ x ∈ s.sched.timers, x.handle = x.seq ∧ x.seq < s.sched.nextSeq

theorem State.Inv.cardInv {s : State} (h : s.Inv) : CardInv s where
  channel k := ⟨h.fifoBound k, h.oneTimer k, h.unattached k, h.xoffNeeded k⟩
  oneStrobe := h.oneStrobe
  handles := h.handles

theorem ChannelInv.congr {s t : State} {k : Chan} (h : ChannelInv s k) (hchan : t.chan k = s.chan k)
    (htimers : t.timersOf k = s.timersOf k) (hcfg : t.cfg = s.cfg) : ChannelInv t k := by
  obtain ⟨hfifo, hcoherent, hunattached, hxoff⟩ := h
  unfold State.timerCoherent at hcoherent
  rw [← hchan, ← htimers] at hcoherent
  exact ⟨hchan ▸ hfifo, hcoherent, by rwa [hchan, hcfg], by rwa [hchan]⟩

/-- The clauses about the card read nothing else. -/
theorem CardInv.congr {s t : State} (h : CardInv s) (hbus : t.bus = s.bus) (huart : t.uart = s.uart)
    (htimers : t.sched.timers = s.sched.timers) (hseq : t.sched.nextSeq = s.sched.nextSeq) (hcfg : t.cfg = s.cfg) :
    CardInv t where
  channel k := (h.channel k).congr (State.chan_congr huart k) (by unfold State.timersOf; rw [htimers]) hcfg
  oneStrobe := hbus ▸ h.oneStrobe
  handles := by rw [htimers, hseq]; exact h.handles

theorem CardInv.of_cardSame {s t : State} (h : CardInv s) (hcard : CardSame s t) : CardInv t :=
  h.congr hcard.bus hcard.uart (by rw [hcard.sched]) (by rw [hcard.sched]) hcard.cfg

/-- A change of channel k and its timers keeps the clauses if it keeps those about k. -/
theorem CardInv.update {s t : State} {k : Chan} (h : CardInv s) (hbus : t.bus = s.bus) (hcfg : t.cfg = s.cfg)
    (hother : ∀ j, j ≠ k → t.chan j = s.chan j ∧ t.timersOf j = s.timersOf j) (hk : ChannelInv t k)
    (hhandles : ∀ x ∈ t.sched.timers, x.handle = x.seq ∧ x.seq < t.sched.nextSeq) : CardInv t where
  channel j := by
    by_cases hj : j = k
    · exact hj ▸ hk
    · obtain ⟨hchan, htimers⟩ := hother j hj
      exact (h.channel j).congr hchan htimers hcfg
  oneStrobe := hbus ▸ h.oneStrobe
  handles := hhandles

/-! ### The receive side: FIFO, endpoint, flow control -/

/-- A channel changes on its receive side: the transmitter and its timer stay. -/
theorem CardInv.setChan {s : State} {k : Chan} {c : Channel} (h : CardInv s) (hfifo : c.fifo.length ≤ 2048)
    (hready : c.txReady = (s.chan k).txReady) (htimer : c.txTimer = (s.chan k).txTimer)
    (hendpoint : s.cfg.numTerms.toNat ≤ k.toNat → c.endpoint = .null)
    (hxoff : c.xoffSent = true → c.endpoint ≠ .null ∧ 512 < c.fifo.length) : CardInv (s.setChan k c) := by
  have hself : (s.setChan k c).chan k = c := State.chan_setChan_self k c s
  refine h.update rfl rfl (fun j hj => ⟨State.chan_setChan_ne hj c s, rfl⟩) ⟨?_, ?_, ?_, ?_⟩ h.handles
  · rw [hself]; exact hfifo
  · have hcoherent := (h.channel k).coherent
    unfold State.timerCoherent at hcoherent ⊢
    rw [hself, hready, htimer]
    exact hcoherent
  · rw [hself]; exact hendpoint
  · rw [hself]; exact hxoff

theorem CardInv.flowXoff {s : State} (h : CardInv s) (k : Chan) : CardInv (flowXoff k s) := by
  rcases flowXoff_cases k s with ⟨⟨hep, hlen, -⟩, e⟩ | ⟨-, e⟩ <;> rw [e]
  · have hk := h.channel k
    refine CardInv.congr (h.setChan (k := k) ?_ ?_ ?_ ?_ ?_) rfl rfl rfl rfl rfl
    · exact hk.fifoBound
    · rfl
    · rfl
    · exact hk.unattached
    · exact fun _ => ⟨hep, Nat.lt_of_lt_of_le (by decide) hlen⟩
  · exact h

/-- `FlowXon` after a change of the FIFO to `q`, longer or shorter: an XOFF that stays sent still stands for a full FIFO. -/
theorem CardInv.flowXon_setFifo {s : State} {k : Chan} {q : List Byte} {n : Nat} (h : CardInv s) (hq : q.length ≤ 2048) :
    CardInv (flowXon k (s.setChan k { s.chan k with fifo := q, rxOverrunDrops := n })) := by
  have hk := h.channel k
  rcases flowXon_cases k (s.setChan k { s.chan k with fifo := q, rxOverrunDrops := n }) with ⟨-, e⟩ | ⟨hno, e⟩ <;> rw [e]
  · rw [State.setChan_setChan, State.chan_setChan_self]
    refine CardInv.congr (h.setChan (k := k) hq ?_ ?_ ?_ ?_) rfl rfl rfl rfl rfl
    · rfl
    · rfl
    · exact hk.unattached
    · exact nofun
  · rw [State.chan_setChan_self] at hno
    refine h.setChan hq rfl rfl hk.unattached fun hx => ?_
    obtain ⟨hep, -⟩ := hk.xoffNeeded hx
    exact ⟨hep, Nat.lt_of_not_le fun hlen => hno ⟨hep, hlen, hx⟩⟩

theorem CardInv.flowXon {s : State} (h : CardInv s) (k : Chan) : CardInv (flowXon k s) := by
  have hsame := h.flowXon_setFifo (k := k) (n := (s.chan k).rxOverrunDrops) (h.channel k).fifoBound
  rwa [show ({ s.chan k with fifo := (s.chan k).fifo, rxOverrunDrops := (s.chan k).rxOverrunDrops } : Channel) = s.chan k
    from rfl, State.setChan_chan] at hsame

/-! ### The transmit side: a timer started, a timer fired -/

/-- A timer of channel k is started where the channel has none left: the transmitter is busy and names it. -/
theorem CardInv.startTimer {s t : State} {k : Chan} {c : Channel} {ts : List Timer} {x : Timer} (h : CardInv s)
    (hsub : ∀ y ∈ ts, y ∈ s.sched.timers) (hnone : ts.filter (fun y => y.chan = k) = [])
    (hrest : ∀ j, j ≠ k → ts.filter (fun y => y.chan = j) = s.timersOf j)
    (hc : c = { s.chan k with txReady := false, txByte := c.txByte, txTimer := some s.sched.nextSeq })
    (hx : x.handle = s.sched.nextSeq ∧ x.seq = s.sched.nextSeq ∧ x.chan = k)
    (hbus : t.bus = s.bus) (hcfg : t.cfg = s.cfg) (huart : t.uart = (s.setChan k c).uart)
    (htimers : t.sched.timers = ts ++ [x]) (hseq : t.sched.nextSeq = s.sched.nextSeq + 1) : CardInv t := by
  obtain ⟨hhandle, hxseq, hxchan⟩ := hx
  have hk := h.channel k
  have hself : t.chan k = c := (State.chan_congr huart k).trans (State.chan_setChan_self k c s)
  have htimersOf (j : Chan) : t.timersOf j = ts.filter (fun y => y.chan = j) ++ [x].filter (fun y => y.chan = j) := by
    unfold State.timersOf
    rw [htimers, List.filter_append]
  refine h.update (k := k) hbus hcfg (fun j hj => ⟨?_, ?_⟩) ⟨?_, .inr ⟨?_, x, ?_, ?_⟩, ?_, ?_⟩ fun y hy => ?_
  · exact (State.chan_congr huart j).trans (State.chan_setChan_ne hj c s)
  · rw [htimersOf, hrest j hj]
    simp [hxchan, hj.symm]
  · rw [hself, hc]; exact hk.fifoBound
  · rw [hself, hc]
  · rw [hself, hc, hhandle]
  · rw [htimersOf, hnone]
    simp [hxchan]
  · rw [hself, hc, hcfg]; exact hk.unattached
  · rw [hself, hc]; exact hk.xoffNeeded
  · rw [hseq]
    rw [htimers] at hy
    rcases List.mem_append.1 hy with hy | hy
    · obtain ⟨hys, hlt⟩ := h.handles y (hsub y hy)
      exact ⟨hys, Nat.lt_succ_of_lt hlt⟩
    · rw [List.mem_singleton.1 hy, hhandle, hxseq]
      exact ⟨rfl, Nat.lt_succ_self _⟩

/-- A pending timer of channel k is its only one, and the transmitter is busy. -/
theorem CardInv.timersOf_of_mem {s : State} (h : CardInv s) {x : Timer} (hx : x ∈ s.sched.timers) :
    (s.chan x.chan).txReady = false ∧ s.timersOf x.chan = [x] := by
  have hmem : x ∈ s.timersOf x.chan := List.mem_filter.2 ⟨hx, decide_eq_true rfl⟩
  rcases (h.channel x.chan).coherent with ⟨-, -, hnil⟩ | ⟨hbusy, y, -, hy⟩
  · rw [hnil] at hmem; cases hmem
  · rw [hy] at hmem ⊢
    exact ⟨hbusy, by rw [List.mem_singleton.1 hmem]⟩

/-- The channel of a pending timer has none left without it. -/
theorem CardInv.filter_erase_self {s : State} (h : CardInv s) {x : Timer} (hx : x ∈ s.sched.timers) :
    (s.sched.timers.erase x).filter (fun y => y.chan = x.chan) = [] := by
  rw [← List.erase_filter]
  have := (h.timersOf_of_mem hx).2
  unfold State.timersOf at this
  rw [this, List.erase_cons_head]

/-- The other channels keep their timers. -/
theorem filter_erase_ne {x : Timer} {j : Chan} (hj : j ≠ x.chan) (ts : List Timer) :
    (ts.erase x).filter (fun y => y.chan = j) = ts.filter (fun y => y.chan = j) := by
  rw [← List.erase_filter]
  refine List.erase_of_not_mem fun hx => hj ?_
  exact (of_decide_eq_true (List.mem_filter.1 hx).2).symm

theorem CardInv.fireTimer {s : State} (h : CardInv s) {x : Timer} (hx : x ∈ s.sched.timers) : CardInv (fireTimer x s) := by
  have hk := h.channel x.chan
  rcases fireTimer_cases x s with ⟨draws, sent, e, -⟩ | ⟨-, draws, d, -, -, e⟩
  · have hself : (Machine.fireTimer x s).chan x.chan = { s.chan x.chan with txTimer := none, txReady := true } := by
      rw [e]; exact State.chan_setChan_self _ _ s
    refine h.update (k := x.chan) (by rw [e]; rfl) (by rw [e]; rfl) (fun j hj => ⟨?_, ?_⟩)
      ⟨?_, .inl ⟨?_, ?_, ?_⟩, ?_, ?_⟩ fun y hy => ?_
    · rw [e]; exact State.chan_setChan_ne hj _ s
    · rw [e]; exact filter_erase_ne hj _
    · rw [hself]; exact hk.fifoBound
    · rw [hself]
    · rw [hself]
    · rw [e]; exact h.filter_erase_self hx
    · rw [hself, e]; exact hk.unattached
    · rw [hself]; exact hk.xoffNeeded
    · rw [e] at hy ⊢
      exact h.handles y (List.mem_of_mem_erase hy)
  · rw [e]
    refine h.startTimer (x := ⟨s.sched.nextSeq, s.sched.now + d, s.sched.nextSeq, x.chan⟩)
      (fun y => List.mem_of_mem_erase) (h.filter_erase_self hx) (fun j hj => filter_erase_ne hj _)
      ?_ ⟨rfl, rfl, rfl⟩ rfl rfl rfl rfl rfl
    rw [← (h.timersOf_of_mem hx).1]

theorem CardInv.fireDue {s : State} (h : CardInv s) : CardInv (fireDue s) :=
  fireDue_induct (fun _ _ ht hx => ht.fireTimer (nextDue_eq_some hx).1) h

/-! ### The port operations and the environment -/

theorem CardInv.portOperation {v w : State} (h : CardInv v) (hp : PortOperation v w) : CardInv w := by
  rcases hp with rfl | ⟨p, rfl⟩ | ⟨p, a, rfl⟩
  · exact h
  · rcases portRead_cases p v with e | e | ⟨b, rest, hfifo, e⟩ | e <;> rw [e]
    · exact h
    · exact ⟨fun k => (h.channel k).congr rfl rfl rfl, nofun, h.handles⟩
    · have hbound := (h.channel v.uart.sel).fifoBound
      rw [hfifo] at hbound
      exact h.flowXon_setFifo (n := (v.chan v.uart.sel).rxOverrunDrops) (Nat.le_of_succ_le hbound)
    · exact h.congr rfl rfl rfl rfl rfl
  · rcases portWrite_cases p a v with ⟨x, e⟩ | ⟨prime, rbi, e⟩ | ⟨j, e⟩ | ⟨prime, ev, -, e⟩ | ⟨hready, e⟩ <;> rw [e]
    · exact h.congr rfl rfl rfl rfl rfl
    · exact ⟨fun k => (h.channel k).congr rfl rfl rfl, h.oneStrobe, h.handles⟩
    · exact ⟨fun k => (h.channel k).congr (by cases k <;> rfl) rfl rfl, h.oneStrobe, h.handles⟩
    · exact ⟨fun k => (h.channel k).congr rfl rfl rfl, h.oneStrobe, h.handles⟩
    · refine h.startTimer (x := ⟨v.sched.nextSeq, v.sched.now + 572917, v.sched.nextSeq, v.uart.sel⟩)
        (fun _ => id) ?_ (fun _ _ => rfl) rfl ⟨rfl, rfl, rfl⟩ rfl rfl rfl rfl rfl
      rcases (h.channel v.uart.sel).coherent with ⟨-, -, hnil⟩ | ⟨hbusy, -⟩
      · exact hnil
      · rw [hready] at hbusy; cases hbusy

theorem CardInv.envStep {op : EnvOp} {s t : State} (h : CardInv s) (hstep : envStep op s = .next t) : CardInv t := by
  rcases envStep_cases hstep with rfl | rfl | ⟨bus, rfl, hbus⟩ | ⟨k, c, rfl, hc, -⟩ | ⟨k, ep, -, rfl, hep⟩
  · exact h
  · exact h.congr rfl rfl rfl rfl rfl
  · refine ⟨fun k => (h.channel k).congr rfl rfl rfl, ?_, h.handles⟩
    rcases hbus with ⟨hobs, hcbs⟩ | hne
    · show ¬(bus.obsSeen = true ∧ bus.cbsSeen = true)
      rw [hobs, hcbs]; exact h.oneStrobe
    · show ¬(bus.obsSeen = true ∧ bus.cbsSeen = true)
      rw [hne]
      cases bus.cbsSeen <;> simp
  · have hk := h.channel k
    obtain ⟨q, n, rfl, hq, hgrows⟩ := hc hk.fifoBound
    have hpushed : CardInv (s.setChan k { s.chan k with fifo := q, rxOverrunDrops := n }) := by
      refine h.setChan hq rfl rfl hk.unattached fun hx => ?_
      obtain ⟨hattached, hlong⟩ := hk.xoffNeeded hx
      exact ⟨hattached, Nat.lt_of_lt_of_le hlong hgrows⟩
    exact (hpushed.flowXoff k).flowXon k
  · refine h.setChan (h.channel k).fifoBound rfl rfl (fun hk => ?_) nofun
    rcases hep with hnull | hlt
    · exact hnull
    · exact absurd hk (Nat.not_le_of_lt hlt)

/-! ### The shape of a step, as a claim about its next state -/

/-- `step_shape`, read backwards from the next state. -/
theorem step_next {s t : State} (h : step s = .next t) : ∃ v w u,
    CoreUpdate { s with intReq := false, intVec := if s.interruptPending then 0xFF#8 else s.intVec } v ∧
    PortOperation v w ∧ CoreUpdate w u ∧ 4 ≤ billedCycles u.opCycles ∧ billedCycles u.opCycles ≤ 18 ∧
    t = fireDue (billStep u) := by
  obtain ⟨v, w, u, hv, hw, hu, h4, h18, e⟩ := step_shape s
  rw [h] at e
  cases e
  exact ⟨v, w, u, hv, hw, hu, h4, h18, rfl⟩

/-- The latch of the request is no part of the card. -/
theorem cardSame_of_latched {s v : State} {req : Bool} {vec : Byte}
    (h : CoreUpdate { s with intReq := req, intVec := vec } v) : CardSame s v :=
  ⟨h.card.bus, h.card.uart, h.card.sched, h.card.trace, h.card.cfg⟩

/-- Settles O11: the bill is the only part of a step that moves the cycle counter or the clock. -/
theorem stepAdvancesTheClock : Obligations.StepAdvancesTheClock := by
  intro s t h
  obtain ⟨v, w, u, hv, hw, hu, h4, h18, rfl⟩ := step_next h
  have hfire := fireDue_coreSame (billStep u)
  refine ⟨billedCycles u.opCycles, h4, h18, ?_, ?_⟩
  · calc (fireDue (billStep u)).cyc = u.cyc + billedCycles u.opCycles := hfire.cyc
      _ = s.cyc + billedCycles u.opCycles := by rw [hu.cyc, hw.coreSame.cyc, hv.cyc]
  · calc (fireDue (billStep u)).sched.now = u.sched.now + billedNs u.opCycles := hfire.now
      _ = s.sched.now + 561 * billedCycles u.opCycles := by
        rw [billedNs_eq (by omega), hu.card.sched, hw.coreSame.now, hv.card.sched]

/-! ### The statements about the invariant -/

/-- Settles O15: each clause at the power-on values. -/
theorem invariantHoldsAtReset : Obligations.InvariantHoldsAtReset where
  ramCanonical := rfl
  romCanonical := rfl
  fifoBound k := by cases k <;> decide
  oneTimer k := .inl (by cases k <;> exact ⟨rfl, rfl, rfl⟩)
  oneStrobe := by decide
  noneDue := nofun
  handles := nofun
  requestDropped := rfl
  clock := rfl
  unattached k _ := by cases k <;> rfl
  xoffNeeded k := by cases k <;> exact nofun

/-- The whole invariant from its clauses about the card. -/
theorem CardInv.inv {t : State} (h : CardInv t) (hram : Memory.wf 0x2000 0x3000 t.ram = true)
    (hrom : Memory.wf 0 0x1000 t.rom = true) (hdue : ∀ x ∈ t.sched.timers, t.sched.now < x.deadline)
    (hreq : t.intReq = false) (hclock : t.sched.now = 561 * t.cyc) : t.Inv where
  ramCanonical := hram
  romCanonical := hrom
  fifoBound k := (h.channel k).fifoBound
  oneTimer k := (h.channel k).coherent
  oneStrobe := h.oneStrobe
  noneDue := hdue
  handles := h.handles
  requestDropped := hreq
  clock := hclock
  unattached k := (h.channel k).unattached
  xoffNeeded k := (h.channel k).xoffNeeded

/-- Settles O16: every part of a step keeps the clauses about the card and the form of RAM; the request is dropped before the
first part, and none is due after `FireDue`. -/
theorem stepKeepsTheInvariant : Obligations.StepKeepsTheInvariant := by
  intro s t hinv h
  obtain ⟨n, -, -, hcyc, hnow⟩ := stepAdvancesTheClock s t h
  obtain ⟨v, w, u, hv, hw, hu, -, -, rfl⟩ := step_next h
  have hfire := fireDue_coreSame (billStep u)
  have hcard : CardInv u :=
    ((hinv.cardInv.of_cardSame (cardSame_of_latched hv)).portOperation hw).of_cardSame hu.card
  have hbilled : CardInv (billStep u) := hcard.congr rfl rfl rfl rfl rfl
  refine hbilled.fireDue.inv ?_ ?_ (fireDue_none_due _) ?_ ?_
  · rw [hfire.ram]
    refine hu.ramForm ?_
    rw [hw.coreSame.ram]
    exact hv.ramForm hinv.ramCanonical
  · rw [hfire.rom]
    show Memory.wf 0 0x1000 u.rom = true
    rw [hu.rom, hw.coreSame.rom, hv.rom]
    exact hinv.romCanonical
  · rw [hfire.intReq]
    show u.intReq = false
    rw [hu.intReq, hw.coreSame.intReq, hv.intReq]
  · rw [hcyc, hnow, hinv.clock, Nat.mul_add]

/-- The environment does not touch the timers. -/
theorem envStep_timers {op : EnvOp} {s t : State} (h : envStep op s = .next t) : t.sched = s.sched := by
  rcases envStep_cases h with rfl | rfl | ⟨bus, rfl, -⟩ | ⟨k, c, rfl, -⟩ | ⟨k, ep, -, rfl, -⟩
  · rfl
  · rfl
  · rfl
  · rcases flowXon_cases k (flowXoff k (s.setChan k c)) with ⟨-, e⟩ | ⟨-, e⟩ <;> rw [e] <;>
      rcases flowXoff_cases k (s.setChan k c) with ⟨-, e⟩ | ⟨-, e⟩ <;> rw [e] <;> rfl
  · rfl

/-- Settles O17: an operation of the environment keeps the clauses about the card and does not touch what the others read. -/
theorem environmentKeepsTheInvariant : Obligations.EnvironmentKeepsTheInvariant := by
  intro op s t hinv h
  have hcore := envStep_coreSame h
  have hsched := envStep_timers h
  refine (hinv.cardInv.envStep h).inv ?_ ?_ ?_ ?_ ?_
  · rw [hcore.ram]; exact hinv.ramCanonical
  · rw [hcore.rom]; exact hinv.romCanonical
  · rw [hsched]; exact hinv.noneDue
  · rw [hcore.intReq]; exact hinv.requestDropped
  · rw [hsched, hcore.cyc]; exact hinv.clock

end Sys2Proof.Machine

/-! The step taken apart (60_exceptions.md R400 to R409): the idle step, acceptance, return, the instruction at `PC`; what
every transition keeps, of ROM, the configuration and the fault record; reset; the statements O5 to O10 and O12 to O14. -/

namespace Sys2Proof.Machine

/-! ### The bill of a known number of cycles -/

/-- What a step bills for a core step of at most 30 cycles. -/
theorem billStep_eq {u : State} (h : u.opCycles ≤ 30) : billStep u = { u with
    cyc := u.cyc + u.opCycles, sched := { u.sched with now := u.sched.now + 561 * u.opCycles } } := by
  unfold billStep
  rw [billedNs_eq (by rw [billedCycles_le h]; exact h), billedCycles_le h]

/-! ### One step -/

/-- Settles O5: the fetch at `PC` yields the instruction (`fetchInstr_of_bytes`, by O1), and the step goes on with it. -/
theorem stepRunsTheInstructionAtPc : Obligations.StepRunsTheInstructionAtPc := by
  intro i s hwf hrunning hrefused hbytes
  have hdecode : decode (encode i) = .ok (i, []) := by simpa using decodeInvertsEncode i [] hwf
  rcases step_cases s with ⟨haccepts, -⟩ | ⟨-, hhalted, -⟩ | ⟨-, -, t, ht, hstep⟩
  · rw [hrefused] at haccepts; cases haccepts
  · rw [hrunning] at hhalted; cases hhalted
  · have hfetch := fetchInstr_of_bytes
      (s := { s with intReq := false, intVec := if s.interruptPending then 0xFF#8 else s.intVec }) hbytes hdecode
    rw [hfetch] at ht hstep
    exact ⟨t, ht, hstep⟩

/-- Settles O6: by the three cases of a step, and `exec_update`. -/
theorem stepNeverStops : Obligations.StepNeverStops := by
  constructor
  · intro s
    obtain ⟨_, _, _, _, _, _, _, _, h⟩ := step_shape s
    exact ⟨_, h⟩
  · intro i s
    obtain ⟨t, h, _⟩ := exec_update i s
    exact ⟨t, h⟩

/-- Settles O7: the case of the idle step. -/
theorem haltedStepIdles : Obligations.HaltedStepIdles := by
  intro s hhalted hrefused
  rcases step_cases s with ⟨haccepts, -⟩ | ⟨-, -, hstep⟩ | ⟨-, hrunning, -⟩
  · rw [hrefused] at haccepts; cases haccepts
  · rw [billStep_eq (show (4 : Nat) ≤ 30 by decide)] at hstep
    refine ⟨idleStep _, hstep, ?_, ⟨rfl, rfl, rfl⟩, hhalted, rfl, rfl, rfl, fun _ _ => rfl, recorded_refl s,
      ⟨rfl, rfl, rfl, rfl, rfl⟩⟩
    exact fun r _ => by cases r <;> rfl
  · rw [hhalted] at hrunning; cases hrunning

/-- Settles O8: the case of an acceptance, with the card's vector latched (`acceptInterrupt_restart`). -/
theorem interruptEntry : Obligations.InterruptEntry := by
  intro s hpending hinte hshadow
  rcases step_cases s with ⟨-, hstep⟩ | ⟨hrefused, -⟩ | ⟨hrefused, -⟩
  · rw [if_pos hpending] at hstep
    obtain ⟨hpc, hsp, hhigh, hlow, hregs, hflags, hframe⟩ :=
      acceptInterrupt_restart (s := { s with intReq := false, intVec := 0xFF#8 })
        (show 0xFF#8 &&& 0xC7#8 = 0xC7#8 by decide)
    have htarget : BitVec.ofNat 16 (8 * ((0xFF#8).extractLsb' 3 3).toNat) = 0x0038#16 := by decide
    rw [billStep_eq (by rw [hframe.cycles]; decide), hframe.cycles, hframe.control.cyc, hframe.card.sched] at hstep
    refine ⟨_, hstep, hpc.trans htarget, hsp, hhigh, hlow, fun r hr => ?_, hflags, hframe⟩
    rw [hregs r hr]
    cases r <;> rfl
  · rw [hpending, hinte, hshadow] at hrefused; cases hrefused
  · rw [hpending, hinte, hshadow] at hrefused; cases hrefused

/-- Settles O9: `acceptInterrupt` by the form of the vector. -/
theorem vectorAcceptance : Obligations.VectorAcceptance := by
  intro s hreq hinte hshadow
  refine ⟨_, execOneOp_accepts (by unfold acceptsRequest; rw [hreq, hinte, hshadow]; rfl), ?_⟩
  by_cases hv : s.intVec &&& 0xC7#8 = 0xC7#8
  · obtain ⟨hpc, hsp, hhigh, hlow, hregs, hflags, hframe⟩ := acceptInterrupt_restart (s := { s with intReq := false }) hv
    rw [if_pos hv]
    refine ⟨fun r hr => ?_, hflags, hpc, hsp, hhigh, hlow, hframe⟩
    rw [hregs r hr]
    cases r <;> rfl
  · rw [if_neg hv, acceptInterrupt_unsupported (s := { s with intReq := false }) hv]
    exact ⟨fun r _ => by cases r <;> rfl, rfl, rfl, rfl, instrFrame_registers ⟨_, _, _, _, _, _, _, _, _, _, rfl⟩⟩

/-- A return from a stack that holds `pc`. -/
theorem exec_ret_of_peek {t : State} {pc : Word} (hlow : t.peek t.sp = some (loByte pc))
    (hhigh : t.peek (t.sp + 1#16) = some (hiByte pc)) :
    exec .ret t = .next { t with pc := pc, sp := t.sp + 2#16, opCycles := 10 } := by
  show (returnFromStack t).done 10 = _
  rw [returnFromStack, pop16_of_peek hlow hhigh, joinBytes_hiByte_loByte]
  rfl

/-- Settles O10: the two bytes that entry stored (O8) are still there after the due timers, which leave the core alone. -/
theorem returnResumesTheInterruptedProgram : Obligations.ReturnResumesTheInterruptedProgram := by
  intro s hpending hinte hshadow hramHigh hramLow
  obtain ⟨u, hstep, -, hsp, hhigh, hlow, hregs, hflags, hframe⟩ := interruptEntry s hpending hinte hshadow
  have hfire := fireDue_coreSame { u with cyc := s.cyc + 11, sched := { s.sched with now := s.sched.now + 6171 } }
  set t := fireDue { u with cyc := s.cyc + 11, sched := { s.sched with now := s.sched.now + 6171 } }
  have htsp : t.sp = s.sp - 2#16 := hfire.sp.trans hsp
  have htpeek (a : Word) : t.peek a = u.peek a := hfire.peek a
  have htlow : t.peek t.sp = some (loByte s.pc) := by
    rw [htpeek, htsp, hlow, if_pos hramLow]
  have hthigh : t.peek (t.sp + 1#16) = some (hiByte s.pc) := by
    rw [htpeek, htsp, show s.sp - 2#16 + 1#16 = s.sp - 1#16 by bv_omega, hhigh, if_pos hramHigh]
  refine ⟨t, _, hstep, exec_ret_of_peek htlow hthigh, rfl, ?_, ?_, ?_, fun r hr => ?_⟩
  · show t.sp + 2#16 = s.sp
    rw [htsp]; bv_omega
  · exact hfire.inte.trans hframe.control.inte
  · exact hfire.flags.trans hflags
  · have htreg : t.reg r = u.reg r := by rw [hfire.regs r hr]; cases r <;> rfl
    rw [← hregs r hr, ← htreg]
    cases r <;> rfl

/-! ### What every transition keeps -/

/-- The configuration and ROM, and with ROM every byte outside RAM. -/
structure FixedSame (s t : State) : Prop where
  cfg : t.cfg = s.cfg
  rom : t.rom = s.rom

theorem transition_fixedSame {s t : State} (h : Transition s t) : FixedSame s t := by
  rcases h with h | ⟨op, h⟩
  · obtain ⟨v, w, u, hv, hw, hu, -, -, rfl⟩ := step_next h
    have hfire := fireDue_coreSame (billStep u)
    constructor
    · calc (fireDue (billStep u)).cfg = u.cfg := hfire.cfg
        _ = s.cfg := by rw [hu.card.cfg, hw.coreSame.cfg, hv.card.cfg]
    · calc (fireDue (billStep u)).rom = u.rom := hfire.rom
        _ = s.rom := by rw [hu.rom, hw.coreSame.rom, hv.rom]
  · exact ⟨(envStep_coreSame h).cfg, (envStep_coreSame h).rom⟩

/-- Settles O12: a byte below 0x1000 is ROM's; an address of no region holds none in any state. -/
theorem romAndConfigurationNeverChange : Obligations.RomAndConfigurationNeverChange := by
  intro s t h
  obtain ⟨hcfg, hrom⟩ := transition_fixedSame h
  refine ⟨hcfg, hrom, fun a ha => ?_, fun a ha => State.peek_eq_none.2 (regionOf_eq_unmapped.2 ha)⟩
  simp only [State.peek, regionOf_eq_rom.2 ha, hrom]

/-- A recorded fault stays. -/
def Sticky (s t : State) : Prop := ∀ f, s.fault = some f → t.fault = some f

theorem Sticky.trans {s t u : State} (h : Sticky s t) (k : Sticky t u) : Sticky s u := fun f hf => k f (h f hf)

theorem Sticky.of_fault_eq {s t : State} (h : t.fault = s.fault) : Sticky s t := fun _ hf => h.trans hf

theorem flowXon_sticky (k : Chan) (s : State) : Sticky s (flowXon k s) := by
  rcases flowXon_cases k s with ⟨-, e⟩ | ⟨-, e⟩ <;> rw [e] <;> exact .of_fault_eq rfl

theorem flowXoff_sticky (k : Chan) (s : State) : Sticky s (flowXoff k s) := by
  rcases flowXoff_cases k s with ⟨-, e⟩ | ⟨-, e⟩ <;> rw [e] <;> exact .of_fault_eq rfl

theorem portOperation_sticky {v w : State} (h : PortOperation v w) : Sticky v w := by
  rcases h with rfl | ⟨p, rfl⟩ | ⟨p, a, rfl⟩
  · exact .of_fault_eq rfl
  · rcases portRead_cases p v with e | e | ⟨b, rest, -, e⟩ | e <;> rw [e]
    · exact .of_fault_eq rfl
    · exact .of_fault_eq rfl
    · exact flowXon_sticky _ (v.setChan _ _)
    · exact fun f hf => by simp [hf]
  · rcases portWrite_cases p a v with ⟨x, e⟩ | ⟨prime, rbi, e⟩ | ⟨j, e⟩ | ⟨prime, ev, -, e⟩ | ⟨-, e⟩ <;> rw [e]
    · exact fun f hf => by simp [hf]
    all_goals exact .of_fault_eq rfl

theorem fireDue_sticky (s : State) : Sticky s (fireDue s) := by
  refine fireDue_induct (P := Sticky s) (fun t x h _ => h.trans ?_) (.of_fault_eq rfl)
  rcases fireTimer_cases x t with ⟨_, _, e, -⟩ | ⟨-, _, _, -, -, e⟩ <;> rw [e] <;> exact .of_fault_eq rfl

theorem transition_sticky {s t : State} (h : Transition s t) : Sticky s t := by
  rcases h with h | ⟨op, h⟩
  · obtain ⟨v, w, u, hv, hw, hu, -, -, rfl⟩ := step_next h
    have hbill : Sticky u (billStep u) := .of_fault_eq rfl
    exact fun f hf => ((portOperation_sticky hw).trans (.trans hu.sticky (hbill.trans (fireDue_sticky _)))) f (hv.sticky f hf)
  · rcases envStep_cases h with rfl | rfl | ⟨bus, rfl, -⟩ | ⟨k, c, rfl, -⟩ | ⟨k, ep, -, rfl, -⟩
    · exact .of_fault_eq rfl
    · exact fun f hf => by simp [hf]
    · exact .of_fault_eq rfl
    · have hset : Sticky s (s.setChan k c) := .of_fault_eq rfl
      exact hset.trans ((flowXoff_sticky k _).trans (flowXon_sticky k _))
    · exact .of_fault_eq rfl

/-- Settles O13: every part of a transition is sticky, and reset does not write the record. -/
theorem firstFaultIsKept : Obligations.FirstFaultIsKept :=
  fun _ _ f hf => ⟨fun h => transition_sticky h f hf, hf⟩

/-! ### Reset -/

/-- Settles O14: the values of reset are evaluated; what it keeps, it keeps in every state. -/
theorem resetLeavesTheStatedValues : Obligations.ResetLeavesTheStatedValues := by
  refine ⟨fun s => ?_, rfl, rfl, rfl, rfl, rfl, rfl, rfl, rfl, rfl, fun k => ?_⟩
  · exact ⟨rfl, rfl, fun r => by cases r <;> rfl, rfl, show flagBits Flags.reset = 0x02#8 by decide, rfl, rfl, rfl, rfl, rfl, rfl, fun _ _ => rfl,
      rfl, rfl, rfl, rfl, rfl⟩
  · cases k <;> exact ⟨rfl, rfl, rfl⟩

end Sys2Proof.Machine

/-! The scheduler and the output trace (48_scheduler.md, 10_state.md R47, R48): the loop of `FireDue`, the callback of a timer,
what every part of a transition emits and when, and the statements O18 to O23. -/

namespace Sys2Proof.Machine

/-! ### The loop of `FireDue` -/

/-- Once every due timer has had its turn, more turns change nothing. -/
theorem fireLoop_stable {m n : Nat} {s : State} (hm : (dueTimers s).length ≤ m) (hn : (dueTimers s).length ≤ n) :
    fireLoop m s = fireLoop n s := by
  induction m generalizing n s with
  | zero =>
    have hnone : nextDue s = none := by
      rw [nextDue_eq_none]
      intro y hy
      simpa using List.filter_eq_nil_iff.1 (List.length_eq_zero_iff.1 (Nat.le_zero.1 hm)) y hy
    cases n with
    | zero => rfl
    | succ n => simp only [fireLoop, hnone]
  | succ m ih =>
    cases hdue : nextDue s with
    | none =>
      cases n with
      | zero => simp only [fireLoop, hdue]
      | succ n => simp only [fireLoop, hdue]
    | some x =>
      have hcount := dueTimers_fireTimer hdue
      cases n with
      | zero => omega
      | succ n =>
        simp only [fireLoop, hdue]
        exact ih (by omega) (by omega)

/-- `FireDue` is one turn and `FireDue` again. -/
theorem fireDue_fireTimer {s : State} {x : Timer} (h : nextDue s = some x) : fireDue s = fireDue (fireTimer x s) := by
  have hcount := dueTimers_fireTimer h
  have hturn : fireLoop ((dueTimers (fireTimer x s)).length + 1) s = fireLoop (dueTimers (fireTimer x s)).length (fireTimer x s) := by
    simp only [fireLoop, h]
  calc fireDue s = fireLoop ((dueTimers (fireTimer x s)).length + 1) s :=
        fireLoop_stable (List.length_filter_le _ _) (by omega)
    _ = fireLoop (dueTimers (fireTimer x s)).length (fireTimer x s) := hturn
    _ = fireDue (fireTimer x s) := fireLoop_stable le_rfl (List.length_filter_le _ _)

/-- Settles O18: the order by `earliest_not_after`, the loop by `fireDue_fireTimer`. -/
theorem timersFireInOrder : Obligations.TimersFireInOrder := by
  refine ⟨fun ts x h => ⟨earliest_mem h, fun y hy => ?_⟩, fun s x h hdue => ?_, fun s => ⟨?_, fireDue_keeps s, fireDue_now s⟩⟩
  · have hnot := earliest_not_after h y hy
    rw [Bool.eq_false_iff, ne_eq, Timer.before_iff] at hnot
    omega
  · refine fireDue_fireTimer (x := x) ?_
    rw [nextDue, h, Option.filter_some, if_pos (decide_eq_true hdue)]
  · have hnone := fireDue_none_due s
    rwa [fireDue_now] at hnone

/-! ### The callback -/

section Callback
variable {k : Chan} {s : State}

theorem txTimerFire_unattached (h : (s.chan k).endpoint = .null) :
    txTimerFire k s = s.setChan k { s.chan k with txTimer := none, txReady := true } := by
  simp [txTimerFire, txDeliver, State.setChan_setChan, h]

theorem txTimerFire_delivers (h : (s.chan k).endpoint ≠ .null) (hb : Config.freeBackpressure s.draws = false) :
    txTimerFire k s = { s.setChan k { s.chan k with txTimer := none, txReady := true } with
      draws := s.draws + 1
      trace := s.trace ++ [{ time := s.sched.now, event := .epSend k (s.chan k).txByte }] } := by
  cases k <;> simp_all [txTimerFire, txDeliver, drawBackpressure, State.emit, State.setChan, State.chan]

theorem txTimerFire_rearms (h : (s.chan k).endpoint ≠ .null) (hb : Config.freeBackpressure s.draws = true) :
    txTimerFire k s = { s.setChan k { s.chan k with txTimer := some s.sched.nextSeq } with
      draws := s.draws + 2
      sched := { s.sched with
        nextSeq := s.sched.nextSeq + 1
        timers := s.sched.timers ++ [{
          handle := s.sched.nextSeq, deadline := s.sched.now + (50000 + (Config.freeRearm (s.draws + 1)).val)
          seq := s.sched.nextSeq, chan := k }] } } := by
  cases k <;>
    simp_all [txTimerFire, txRearm, drawBackpressure, drawRearmNs, createTimer, Config.rearmMinNs, State.setChan, State.chan]

end Callback

/-- Settles O23: the three outcomes of the callback; a re-arm delay is at most 150 000 ns above the least one. -/
theorem characterTimeCallback : Obligations.CharacterTimeCallback := by
  intro k s
  refine ⟨txTimerFire_unattached, fun h => ?_⟩
  have hd : (Config.freeRearm (s.draws + 1)).val < 150001 := (Config.freeRearm (s.draws + 1)).isLt
  refine ⟨50000 + (Config.freeRearm (s.draws + 1)).val, by omega, by omega, ?_⟩
  cases hb : Config.freeBackpressure s.draws with
  | true => rw [if_pos rfl]; exact txTimerFire_rearms h hb
  | false => rw [if_neg Bool.false_ne_true]; exact txTimerFire_delivers h hb

/-! ### What a port operation does to the timers -/

/-- A port operation starts at most one timer, which is due a character time later, and touches no other. -/
theorem portOperation_timers {v w : State} (h : PortOperation v w) :
    ∃ new, w.sched.timers = v.sched.timers ++ new ∧ ∀ y ∈ new, y.deadline = v.sched.now + 572917 := by
  have same : ∀ {w : State}, w.sched = v.sched →
      ∃ new, w.sched.timers = v.sched.timers ++ new ∧ ∀ y ∈ new, y.deadline = v.sched.now + 572917 :=
    fun e => ⟨[], by rw [e, List.append_nil], nofun⟩
  rcases h with rfl | ⟨p, rfl⟩ | ⟨p, a, rfl⟩
  · exact same rfl
  · rcases portRead_cases p v with e | e | ⟨b, rest, -, e⟩ | e <;> rw [e]
    · exact same rfl
    · exact same rfl
    · rcases flowXon_cases v.uart.sel (v.setChan v.uart.sel { v.chan v.uart.sel with fifo := rest }) with ⟨-, e⟩ | ⟨-, e⟩ <;>
        rw [e] <;> exact same rfl
    · exact same rfl
  · rcases portWrite_cases p a v with ⟨x, e⟩ | ⟨prime, rbi, e⟩ | ⟨j, e⟩ | ⟨prime, ev, -, e⟩ | ⟨-, e⟩ <;> rw [e]
    · exact same rfl
    · exact same rfl
    · exact same rfl
    · exact same rfl
    · exact ⟨_, rfl, fun y hy => by rw [List.mem_singleton.1 hy]⟩

/-- Settles O19: a timer pending before the step is pending when `FireDue` begins, and `FireDue` takes exactly the due ones; a
step lasts at most 18 cycles, and the timer was not due before it. -/
theorem timerFiresWithinOneStep : Obligations.TimerFiresWithinOneStep := by
  intro s t x hinv h hx
  obtain ⟨n, -, h18, -, hnow⟩ := stepAdvancesTheClock s t h
  have hahead : s.sched.now < x.deadline := hinv.noneDue x hx
  refine ⟨⟨fun hxt => (stepKeepsTheInvariant s t hinv h).noneDue x hxt, fun hlt => ?_⟩, by omega⟩
  obtain ⟨v, w, u, hv, hw, hu, -, -, rfl⟩ := step_next h
  obtain ⟨new, htimers, -⟩ := portOperation_timers hw
  refine fireDue_keeps _ x ?_ (by rwa [fireDue_now] at hlt)
  show x ∈ u.sched.timers
  rw [hu.card.sched, htimers, hv.card.sched]
  exact List.mem_append_left _ hx

/-! ### What is emitted, and when -/

/-- From `s` to `t` the events `new` are emitted, at times between the two. -/
structure Emits (s t : State) (new : List Emitted) : Prop where
  trace : t.trace = s.trace ++ new
  forward : s.sched.now ≤ t.sched.now
  stamped : ∀ e ∈ new, s.sched.now ≤ e.time ∧ e.time ≤ t.sched.now

theorem Emits.nothing {s t : State} (htrace : t.trace = s.trace) (hnow : s.sched.now ≤ t.sched.now) : Emits s t [] :=
  ⟨by rw [htrace, List.append_nil], hnow, nofun⟩

/-- One event, stamped with the time at which it is emitted. -/
theorem Emits.one {s t : State} {ev : Event} (htrace : t.trace = s.trace ++ [{ time := s.sched.now, event := ev }])
    (hnow : t.sched.now = s.sched.now) : Emits s t [{ time := s.sched.now, event := ev }] := by
  refine ⟨htrace, hnow.ge, fun e he => ?_⟩
  rw [List.mem_singleton.1 he]
  exact ⟨le_rfl, hnow.ge⟩

theorem Emits.trans {s t u : State} {xs ys : List Emitted} (h : Emits s t xs) (k : Emits t u ys) : Emits s u (xs ++ ys) := by
  refine ⟨by rw [k.trace, h.trace, List.append_assoc], h.forward.trans k.forward, fun e he => ?_⟩
  rcases List.mem_append.1 he with he | he
  · obtain ⟨hfrom, hto⟩ := h.stamped e he
    exact ⟨hfrom, hto.trans k.forward⟩
  · obtain ⟨hfrom, hto⟩ := k.stamped e he
    exact ⟨h.forward.trans hfrom, hto⟩

theorem eventCount_append (ev : Event) (xs ys : List Emitted) : eventCount ev (xs ++ ys) = eventCount ev xs + eventCount ev ys := by
  simp [eventCount]

theorem eventCount_singleton (ev : Event) (e : Emitted) : eventCount ev [e] = if e.event = ev then 1 else 0 := by
  by_cases h : e.event = ev <;> simp [eventCount, h]

/-- The XOFF and XON events for channel k among `new` account for the change of its bit and its counters. -/
structure FlowAccounted (k : Chan) (s t : State) (new : List Emitted) : Prop where
  balance : eventCount (.epXoff k) new + (s.chan k).xoffSent.toNat = eventCount (.epXon k) new + (t.chan k).xoffSent.toNat
  xoffs : (t.chan k).xoffSentCount = (s.chan k).xoffSentCount + eventCount (.epXoff k) new
  xons : (t.chan k).xonSentCount = (s.chan k).xonSentCount + eventCount (.epXon k) new

theorem FlowAccounted.trans {k : Chan} {s t u : State} {xs ys : List Emitted} (h : FlowAccounted k s t xs)
    (l : FlowAccounted k t u ys) : FlowAccounted k s u (xs ++ ys) := by
  obtain ⟨hbalance, hxoffs, hxons⟩ := h
  obtain ⟨lbalance, lxoffs, lxons⟩ := l
  constructor <;> rw [eventCount_append]
  · rw [eventCount_append]; omega
  · omega
  · omega

/-- Channel k's flow control is not touched and no event is one of its own. -/
theorem FlowAccounted.untouched {k : Chan} {s t : State} {new : List Emitted} (hbit : (t.chan k).xoffSent = (s.chan k).xoffSent)
    (hxoffs : (t.chan k).xoffSentCount = (s.chan k).xoffSentCount) (hxons : (t.chan k).xonSentCount = (s.chan k).xonSentCount)
    (hnew : eventCount (.epXoff k) new = 0 ∧ eventCount (.epXon k) new = 0) : FlowAccounted k s t new := by
  obtain ⟨hnoXoff, hnoXon⟩ := hnew
  constructor
  · rw [hnoXoff, hnoXon, hbit]
  · rw [hnoXoff, hxoffs]; rfl
  · rw [hnoXon, hxons]; rfl

theorem FlowAccounted.of_chan_eq {k : Chan} {s t : State} {new : List Emitted} (h : t.chan k = s.chan k)
    (hnew : eventCount (.epXoff k) new = 0 ∧ eventCount (.epXon k) new = 0) : FlowAccounted k s t new :=
  .untouched (by rw [h]) (by rw [h]) (by rw [h]) hnew

/-- Channel k is replaced by `c`. -/
theorem FlowAccounted.of_setChan {k : Chan} {c : Channel} {s t : State} {new : List Emitted}
    (huart : t.uart = (s.setChan k c).uart)
    (hbalance : eventCount (.epXoff k) new + (s.chan k).xoffSent.toNat = eventCount (.epXon k) new + c.xoffSent.toNat)
    (hxoffs : c.xoffSentCount = (s.chan k).xoffSentCount + eventCount (.epXoff k) new)
    (hxons : c.xonSentCount = (s.chan k).xonSentCount + eventCount (.epXon k) new) : FlowAccounted k s t new := by
  have hself : t.chan k = c := (State.chan_congr huart k).trans (State.chan_setChan_self k c s)
  constructor <;> rw [hself] <;> assumption

/-- A part of a transition: its events are stamped and, on the channels `ks`, flow control is accounted for. -/
def Accounts (ks : Chan → Prop) (s t : State) : Prop := ∃ new, Emits s t new ∧ ∀ k, ks k → FlowAccounted k s t new

theorem Accounts.trans {ks : Chan → Prop} {s t u : State} (h : Accounts ks s t) (l : Accounts ks t u) : Accounts ks s u := by
  obtain ⟨xs, hemits, hflow⟩ := h
  obtain ⟨ys, lemits, lflow⟩ := l
  exact ⟨xs ++ ys, hemits.trans lemits, fun k hk => (hflow k hk).trans (lflow k hk)⟩

/-- Nothing emitted, no flow control touched. -/
theorem Accounts.silent {ks : Chan → Prop} {s t : State} (htrace : t.trace = s.trace) (hnow : s.sched.now ≤ t.sched.now)
    (hflow : ∀ k, ks k → (t.chan k).xoffSent = (s.chan k).xoffSent ∧ (t.chan k).xoffSentCount = (s.chan k).xoffSentCount ∧
      (t.chan k).xonSentCount = (s.chan k).xonSentCount) : Accounts ks s t := by
  refine ⟨[], .nothing htrace hnow, fun k hk => ?_⟩
  obtain ⟨hbit, hxoffs, hxons⟩ := hflow k hk
  exact .untouched hbit hxoffs hxons ⟨rfl, rfl⟩

theorem Accounts.of_uart_eq {ks : Chan → Prop} {s t : State} (htrace : t.trace = s.trace) (hnow : s.sched.now ≤ t.sched.now)
    (huart : t.uart = s.uart) : Accounts ks s t := by
  refine .silent htrace hnow fun k _ => ?_
  rw [State.chan_congr huart]
  exact ⟨rfl, rfl, rfl⟩

/-- A channel changes outside flow control. -/
theorem Accounts.of_setChan {ks : Chan → Prop} {s t : State} (j : Chan) (c : Channel) (huart : t.uart = (s.setChan j c).uart)
    (htrace : t.trace = s.trace) (hnow : s.sched.now ≤ t.sched.now)
    (h : ks j → c.xoffSent = (s.chan j).xoffSent ∧ c.xoffSentCount = (s.chan j).xoffSentCount ∧
      c.xonSentCount = (s.chan j).xonSentCount) : Accounts ks s t := by
  refine .silent htrace hnow fun k hk => ?_
  rw [State.chan_congr huart]
  by_cases hkj : k = j
  · subst hkj
    rw [State.chan_setChan_self]
    exact h hk
  · rw [State.chan_setChan_ne hkj]
    exact ⟨rfl, rfl, rfl⟩

theorem accounts_flowXoff (ks : Chan → Prop) (j : Chan) (s : State) : Accounts ks s (flowXoff j s) := by
  rcases flowXoff_cases j s with ⟨⟨-, -, hbit⟩, e⟩ | ⟨-, e⟩ <;> rw [e]
  · refine ⟨_, .one rfl rfl, fun k _ => ?_⟩
    by_cases hkj : k = j
    · subst hkj
      refine .of_setChan rfl ?_ ?_ ?_ <;> simp [eventCount_singleton, hbit]
    · refine .of_chan_eq ((State.chan_congr rfl k).trans (State.chan_setChan_ne hkj _ s)) ?_
      simp [eventCount_singleton, Ne.symm hkj]
  · exact .of_uart_eq rfl le_rfl rfl

theorem accounts_flowXon (ks : Chan → Prop) (j : Chan) (s : State) : Accounts ks s (flowXon j s) := by
  rcases flowXon_cases j s with ⟨⟨-, -, hbit⟩, e⟩ | ⟨-, e⟩ <;> rw [e]
  · refine ⟨_, .one rfl rfl, fun k _ => ?_⟩
    by_cases hkj : k = j
    · subst hkj
      refine .of_setChan rfl ?_ ?_ ?_ <;> simp [eventCount_singleton, hbit]
    · refine .of_chan_eq ((State.chan_congr rfl k).trans (State.chan_setChan_ne hkj _ s)) ?_
      simp [eventCount_singleton, Ne.symm hkj]
  · exact .of_uart_eq rfl le_rfl rfl

theorem accounts_portOperation (ks : Chan → Prop) {v w : State} (h : PortOperation v w) : Accounts ks v w := by
  rcases h with rfl | ⟨p, rfl⟩ | ⟨p, a, rfl⟩
  · exact .of_uart_eq rfl le_rfl rfl
  · rcases portRead_cases p v with e | e | ⟨b, rest, -, e⟩ | e <;> rw [e]
    · exact .of_uart_eq rfl le_rfl rfl
    · exact .of_uart_eq rfl le_rfl rfl
    · have hpopped : Accounts ks v (v.setChan v.uart.sel { v.chan v.uart.sel with fifo := rest }) :=
        .of_setChan _ _ rfl rfl le_rfl fun _ => ⟨rfl, rfl, rfl⟩
      exact hpopped.trans (accounts_flowXon ks _ _)
    · exact .of_uart_eq rfl le_rfl rfl
  · rcases portWrite_cases p a v with ⟨x, e⟩ | ⟨prime, rbi, e⟩ | ⟨j, e⟩ | ⟨prime, ev, hev, e⟩ | ⟨-, e⟩ <;> rw [e]
    · exact .of_uart_eq rfl le_rfl rfl
    · exact .of_uart_eq rfl le_rfl rfl
    · exact .silent rfl le_rfl fun k _ => by cases k <;> exact ⟨rfl, rfl, rfl⟩
    · refine ⟨_, .one rfl rfl, fun k _ => .of_chan_eq rfl ?_⟩
      obtain ⟨-, hnoXon, hnoXoff⟩ := hev k
      rw [eventCount_singleton, eventCount_singleton, if_neg hnoXoff, if_neg hnoXon]
      exact ⟨rfl, rfl⟩
    · exact .of_setChan v.uart.sel { v.chan v.uart.sel with txReady := false, txByte := a, txTimer := some v.sched.nextSeq }
        rfl rfl le_rfl fun _ => ⟨rfl, rfl, rfl⟩

theorem accounts_fireTimer (ks : Chan → Prop) (x : Timer) (s : State) : Accounts ks s (fireTimer x s) := by
  rcases fireTimer_cases x s with ⟨draws, sent, e, hsent⟩ | ⟨-, draws, d, -, -, e⟩ <;> rw [e]
  · have hidle : Accounts ks s (s.setChan x.chan { s.chan x.chan with txTimer := none, txReady := true }) :=
      .of_setChan _ _ rfl rfl le_rfl fun _ => ⟨rfl, rfl, rfl⟩
    refine hidle.trans ?_
    rcases hsent with ⟨-, rfl⟩ | ⟨-, rfl⟩
    · exact .of_uart_eq (List.append_nil _) le_rfl rfl
    · refine ⟨_, .one rfl rfl, fun k _ => .of_chan_eq rfl ?_⟩
      simp [eventCount_singleton]
  · exact .of_setChan x.chan { s.chan x.chan with txTimer := some s.sched.nextSeq }
      rfl rfl le_rfl fun _ => ⟨rfl, rfl, rfl⟩

theorem accounts_fireDue (ks : Chan → Prop) (s : State) : Accounts ks s (fireDue s) :=
  fireDue_induct (P := Accounts ks s) (fun t x h _ => h.trans (accounts_fireTimer ks x t)) (.of_uart_eq rfl le_rfl rfl)

theorem accounts_cardSame (ks : Chan → Prop) {s t : State} (h : CardSame s t) : Accounts ks s t :=
  .of_uart_eq h.trace (by rw [h.sched]) h.uart

theorem accounts_step (ks : Chan → Prop) {s t : State} (h : step s = .next t) : Accounts ks s t := by
  obtain ⟨v, w, u, hv, hw, hu, -, -, rfl⟩ := step_next h
  have hbill : Accounts ks u (billStep u) := .of_uart_eq rfl (Nat.le_add_right _ _) rfl
  exact (accounts_cardSame ks (cardSame_of_latched hv)).trans <| (accounts_portOperation ks hw).trans <|
    (accounts_cardSame ks hu.card).trans <| hbill.trans (accounts_fireDue ks _)

theorem accounts_envStep {op : EnvOp} {s t : State} (h : envStep op s = .next t) :
    Accounts (fun k => op.rebinds k = false) s t := by
  rcases envStep_cases h with rfl | rfl | ⟨bus, rfl, -⟩ | ⟨j, c, rfl, -, q, n, rfl⟩ | ⟨j, ep, hrebinds, rfl, -⟩
  · exact .of_uart_eq rfl le_rfl rfl
  · exact .of_uart_eq rfl le_rfl rfl
  · exact .of_uart_eq rfl le_rfl rfl
  · have hpushed : Accounts (fun k => op.rebinds k = false) s
        (s.setChan j { s.chan j with fifo := q, rxOverrunDrops := n }) :=
      .of_setChan _ _ rfl rfl le_rfl fun _ => ⟨rfl, rfl, rfl⟩
    exact hpushed.trans ((accounts_flowXoff _ j _).trans (accounts_flowXon _ j _))
  · refine .of_setChan _ _ rfl rfl le_rfl fun hnot => ?_
    rw [hrebinds] at hnot
    cases hnot

/-- Settles O20: every part of a transition only adds events, stamped with a time of its own. -/
theorem traceIsNeverRewritten : Obligations.TraceIsNeverRewritten := by
  intro s t h
  have haccounts : Accounts (fun _ => False) s t := by
    rcases h with h | ⟨op, h⟩
    · exact accounts_step _ h
    · obtain ⟨new, hemits, -⟩ := accounts_envStep h
      exact ⟨new, hemits, nofun⟩
  obtain ⟨new, ⟨htrace, hforward, hstamped⟩, -⟩ := haccounts
  exact ⟨hforward, new, htrace, hstamped⟩

/-- An attach or detach of channel k (R322) emits nothing and clears the bit. -/
theorem envStep_rebinds {op : EnvOp} {s t : State} {k : Chan} (hk : op.rebinds k = true) (h : envStep op s = .next t) :
    t.trace = s.trace ∧ (t.chan k).xoffSent = false := by
  have bound : ∀ ep, t = bindEndpoint k ep s → t.trace = s.trace ∧ (t.chan k).xoffSent = false := by
    rintro ep rfl
    exact ⟨rfl, by rw [bindEndpoint, State.chan_setChan_self]⟩
  have attached : ∀ ep, attachEndpoint k ep s = .next t → t.trace = s.trace ∧ (t.chan k).xoffSent = false := by
    intro ep hattach
    unfold attachEndpoint at hattach
    split_ifs at hattach
    exact bound ep (by cases hattach; rfl)
  cases op with
  | attachSerial j => cases of_decide_eq_true hk; exact attached _ h
  | attachSession j => cases of_decide_eq_true hk; exact attached _ h
  | detach j => cases of_decide_eq_true hk; exact bound .null (by cases h; rfl)
  | _ => cases hk

/-- Settles O21: every part of a transition accounts for the flow control of every channel it does not bind anew. -/
theorem xoffAndXonAlternate : Obligations.XoffAndXonAlternate := by
  intro s t k
  refine ⟨fun h => ?_, fun ⟨op, hk, h⟩ => envStep_rebinds hk h⟩
  have haccounts : Accounts (fun j => j = k) s t := by
    rcases h with h | ⟨op, hk, h⟩
    · exact accounts_step _ h
    · obtain ⟨new, hemits, hflow⟩ := accounts_envStep h
      exact ⟨new, hemits, fun j hj => hflow j (hj ▸ hk)⟩
  obtain ⟨new, hemits, hflow⟩ := haccounts
  obtain ⟨hbalance, hxoffs, hxons⟩ := hflow k rfl
  exact ⟨new, hemits.trace, hbalance, hxoffs, hxons⟩

end Sys2Proof.Machine

/-! Delivery to an endpoint (46_uart_bank.md R309, R310): the parts of a step that deliver nothing to channel k, the timers
that deliver its byte, and the statement O22. -/

namespace Sys2Proof.Machine

/-- The transmit side of channel k is unchanged and nothing is delivered to its endpoint. -/
structure TransmitterSame (k : Chan) (s t : State) : Prop where
  undelivered : ∃ new, t.trace = s.trace ++ new ∧ ∀ e ∈ new, e.event.sendsTo k = false
  endpoint : (t.chan k).endpoint = (s.chan k).endpoint
  txReady : (t.chan k).txReady = (s.chan k).txReady
  txByte : (t.chan k).txByte = (s.chan k).txByte

theorem TransmitterSame.trans {k : Chan} {s t u : State} (h : TransmitterSame k s t) (l : TransmitterSame k t u) :
    TransmitterSame k s u := by
  obtain ⟨⟨xs, hxs, hquiet⟩, hendpoint, hready, hbyte⟩ := h
  obtain ⟨⟨ys, hys, lquiet⟩, lendpoint, lready, lbyte⟩ := l
  refine ⟨⟨xs ++ ys, by rw [hys, hxs, List.append_assoc], fun e he => ?_⟩, lendpoint.trans hendpoint, lready.trans hready,
    lbyte.trans hbyte⟩
  rcases List.mem_append.1 he with he | he
  · exact hquiet e he
  · exact lquiet e he

/-- Nothing emitted, and channel k as it was. -/
theorem TransmitterSame.silent {k : Chan} {s t : State} (htrace : t.trace = s.trace) (hchan : t.chan k = s.chan k) :
    TransmitterSame k s t :=
  ⟨⟨[], by rw [htrace, List.append_nil], nofun⟩, by rw [hchan], by rw [hchan], by rw [hchan]⟩

/-- One event that is no delivery to k, and channel k as it was. -/
theorem TransmitterSame.one {k : Chan} {s t : State} {e : Emitted} (htrace : t.trace = s.trace ++ [e])
    (he : e.event.sendsTo k = false) (hchan : t.chan k = s.chan k) : TransmitterSame k s t := by
  refine ⟨⟨[e], htrace, fun d hd => ?_⟩, by rw [hchan], by rw [hchan], by rw [hchan]⟩
  rw [List.mem_singleton.1 hd]
  exact he

/-- Some channel is replaced by one with the same transmit side. -/
theorem TransmitterSame.of_setChan {k : Chan} {s t : State} (j : Chan) (c : Channel) (huart : t.uart = (s.setChan j c).uart)
    (htrace : ∃ new, t.trace = s.trace ++ new ∧ ∀ e ∈ new, e.event.sendsTo k = false)
    (hc : c.endpoint = (s.chan j).endpoint ∧ c.txReady = (s.chan j).txReady ∧ c.txByte = (s.chan j).txByte) :
    TransmitterSame k s t := by
  obtain ⟨hendpoint, hready, hbyte⟩ := hc
  have hchan : t.chan k = if k = j then c else s.chan k := (State.chan_congr huart k).trans (State.chan_setChan j k c s)
  by_cases hkj : k = j
  · subst hkj
    rw [if_pos rfl] at hchan
    exact ⟨htrace, by rw [hchan, hendpoint], by rw [hchan, hready], by rw [hchan, hbyte]⟩
  · rw [if_neg hkj] at hchan
    exact ⟨htrace, by rw [hchan], by rw [hchan], by rw [hchan]⟩

theorem transmitterSame_flowXon (k j : Chan) (s : State) : TransmitterSame k s (flowXon j s) := by
  rcases flowXon_cases j s with ⟨-, e⟩ | ⟨-, e⟩ <;> rw [e]
  · exact .of_setChan j { s.chan j with xoffSent := false, xonSentCount := (s.chan j).xonSentCount + 1 } rfl
      ⟨_, rfl, fun d hd => by rw [List.mem_singleton.1 hd]; rfl⟩ ⟨rfl, rfl, rfl⟩
  · exact .silent rfl rfl

/-- A port operation delivers nothing; it leaves a transmitter alone, or starts an idle one. -/
theorem portOperation_transmitter (k : Chan) {v w : State} (h : PortOperation v w) :
    TransmitterSame k v w ∨ (v.chan k).txReady = true ∧ w.trace = v.trace := by
  rcases h with rfl | ⟨p, rfl⟩ | ⟨p, a, rfl⟩
  · exact .inl (.silent rfl rfl)
  · refine .inl ?_
    rcases portRead_cases p v with e | e | ⟨b, rest, -, e⟩ | e <;> rw [e]
    · exact .silent rfl rfl
    · exact .silent rfl rfl
    · have hpopped : TransmitterSame k v (v.setChan v.uart.sel { v.chan v.uart.sel with fifo := rest }) :=
        .of_setChan _ _ rfl ⟨[], (List.append_nil _).symm, nofun⟩ ⟨rfl, rfl, rfl⟩
      exact hpopped.trans (transmitterSame_flowXon k _ _)
    · exact .silent rfl rfl
  · rcases portWrite_cases p a v with ⟨x, e⟩ | ⟨prime, rbi, e⟩ | ⟨j, e⟩ | ⟨prime, ev, hev, e⟩ | ⟨hready, e⟩ <;> rw [e]
    · exact .inl (.silent rfl rfl)
    · exact .inl (.silent rfl rfl)
    · exact .inl (.silent rfl (by cases k <;> rfl))
    · obtain ⟨hnotSent, -, -⟩ := hev k
      exact .inl (.one rfl hnotSent rfl)
    · by_cases hk : k = v.uart.sel
      · exact .inr ⟨hk ▸ hready, rfl⟩
      · exact .inl (.silent rfl ((State.chan_congr rfl k).trans (State.chan_setChan_ne hk _ v)))

theorem portOperation_undelivered (k : Chan) {v w : State} (h : PortOperation v w) :
    ∃ new, w.trace = v.trace ++ new ∧ ∀ e ∈ new, e.event.sendsTo k = false := by
  rcases portOperation_transmitter k h with hsame | ⟨-, htrace⟩
  · exact hsame.undelivered
  · exact ⟨[], by rw [htrace, List.append_nil], nofun⟩

/-- A timer of another channel. -/
theorem transmitterSame_fireTimer {k : Chan} {x : Timer} (hx : k ≠ x.chan) (s : State) :
    TransmitterSame k s (fireTimer x s) := by
  rcases fireTimer_cases x s with ⟨draws, sent, e, hsent⟩ | ⟨-, draws, d, -, -, e⟩ <;> rw [e]
  · have hchan := State.chan_setChan_ne hx { s.chan x.chan with txTimer := none, txReady := true } s
    rcases hsent with ⟨-, rfl⟩ | ⟨-, rfl⟩
    · exact .silent (List.append_nil _) ((State.chan_congr rfl k).trans hchan)
    · exact .one rfl (decide_eq_false hx.symm) ((State.chan_congr rfl k).trans hchan)
  · exact .silent rfl ((State.chan_congr rfl k).trans (State.chan_setChan_ne hx _ s))

/-- `FireDue` leaves a channel alone that has no due timer. -/
theorem transmitterSame_fireDue {k : Chan} {s : State} (h : ∀ y ∈ s.timersOf k, s.sched.now < y.deadline) :
    TransmitterSame k s (fireDue s) := by
  have hturn : ∀ t x, TransmitterSame k s t ∧ t.timersOf k = s.timersOf k ∧ t.sched.now = s.sched.now →
      nextDue t = some x →
      TransmitterSame k s (fireTimer x t) ∧ (fireTimer x t).timersOf k = s.timersOf k ∧
        (fireTimer x t).sched.now = s.sched.now := by
    rintro t x ⟨hsame, htimers, hnow⟩ hx
    obtain ⟨hmem, hdue⟩ := nextDue_eq_some hx
    have hne : k ≠ x.chan := by
      intro hk
      have hxs : x ∈ s.timersOf k := htimers ▸ List.mem_filter.2 ⟨hmem, decide_eq_true hk.symm⟩
      have := h x hxs
      omega
    refine ⟨hsame.trans (transmitterSame_fireTimer hne t), ?_, (fireTimer_now x t).trans hnow⟩
    rw [← htimers]
    rcases fireTimer_cases x t with ⟨_, _, e, -⟩ | ⟨-, _, d, -, -, e⟩ <;> rw [e]
    · exact filter_erase_ne hne _
    · show List.filter _ (_ ++ _) = _
      rw [List.filter_append, filter_erase_ne hne]
      simp [State.timersOf, hne.symm]
  exact (fireDue_induct (P := fun t => TransmitterSame k s t ∧ t.timersOf k = s.timersOf k ∧ t.sched.now = s.sched.now) hturn
    ⟨.silent rfl rfl, rfl, rfl⟩).1

/-- What a busy transmitter of channel k has become, and what has been delivered to its endpoint: it is still busy with its
byte and nothing was; or it is idle, and with an endpoint its byte was, once. -/
def Delivering (k : Chan) (s t : State) : Prop :=
  ∃ new, t.trace = s.trace ++ new ∧ (t.chan k).endpoint = (s.chan k).endpoint ∧
    ((t.chan k).txReady = false ∧ (t.chan k).txByte = (s.chan k).txByte ∧ (∀ e ∈ new, e.event.sendsTo k = false) ∨
     (t.chan k).txReady = true ∧
      (new.filter (fun e => e.event.sendsTo k)).map Emitted.event =
        if (s.chan k).endpoint = .null then [] else [.epSend k (s.chan k).txByte])

theorem filter_sendsTo_of_undelivered {k : Chan} {new : List Emitted} (h : ∀ e ∈ new, e.event.sendsTo k = false) :
    new.filter (fun e => e.event.sendsTo k) = [] := by
  rw [List.filter_eq_nil_iff]
  intro e he
  rw [h e he]
  exact Bool.false_ne_true

theorem Delivering.then_same {k : Chan} {s t u : State} (h : Delivering k s t) (l : TransmitterSame k t u) :
    Delivering k s u := by
  obtain ⟨xs, hxs, hendpoint, hcases⟩ := h
  obtain ⟨⟨ys, hys, hquiet⟩, lendpoint, lready, lbyte⟩ := l
  refine ⟨xs ++ ys, by rw [hys, hxs, List.append_assoc], lendpoint.trans hendpoint, ?_⟩
  rw [lready, lbyte, List.filter_append, filter_sendsTo_of_undelivered hquiet, List.append_nil]
  rcases hcases with ⟨hbusy, hbyte, hnone⟩ | hidle
  · refine .inl ⟨hbusy, hbyte, fun e he => ?_⟩
    rcases List.mem_append.1 he with he | he
    · exact hnone e he
    · exact hquiet e he
  · exact .inr hidle

theorem Delivering.after_same {k : Chan} {s t u : State} (l : Delivering k t u) (h : TransmitterSame k s t) :
    Delivering k s u := by
  obtain ⟨⟨xs, hxs, hquiet⟩, hendpoint, -, hbyte⟩ := h
  obtain ⟨ys, hys, lendpoint, hcases⟩ := l
  refine ⟨xs ++ ys, by rw [hys, hxs, List.append_assoc], lendpoint.trans hendpoint, ?_⟩
  rw [← hendpoint, ← hbyte, List.filter_append, filter_sendsTo_of_undelivered hquiet, List.nil_append]
  rcases hcases with ⟨lbusy, lbyte, hnone⟩ | hidle
  · refine .inl ⟨lbusy, lbyte, fun e he => ?_⟩
    rcases List.mem_append.1 he with he | he
    · exact hquiet e he
    · exact hnone e he
  · exact .inr hidle

/-- The end of a character time of channel k itself. -/
theorem Delivering.then_fire {s t : State} {x : Timer} (h : Delivering x.chan s t) (hbusy : (t.chan x.chan).txReady = false) :
    Delivering x.chan s (fireTimer x t) := by
  obtain ⟨xs, hxs, hendpoint, hcases⟩ := h
  obtain ⟨hbyte, hnone⟩ : (t.chan x.chan).txByte = (s.chan x.chan).txByte ∧ ∀ e ∈ xs, e.event.sendsTo x.chan = false := by
    rcases hcases with ⟨-, hbyte, hnone⟩ | ⟨hidle, -⟩
    · exact ⟨hbyte, hnone⟩
    · rw [hbusy] at hidle; cases hidle
  have hfilter := filter_sendsTo_of_undelivered hnone
  rcases fireTimer_cases x t with ⟨draws, sent, e, hsent⟩ | ⟨-, draws, d, -, -, e⟩
  · have hself : (fireTimer x t).chan x.chan = { t.chan x.chan with txTimer := none, txReady := true } := by
      rw [e]; exact (State.chan_congr rfl _).trans (State.chan_setChan_self _ _ t)
    have htrace : (fireTimer x t).trace = t.trace ++ sent := by rw [e]
    refine ⟨xs ++ sent, by rw [htrace, hxs, List.append_assoc], by rw [hself]; exact hendpoint, .inr ⟨by rw [hself], ?_⟩⟩
    rw [List.filter_append, hfilter, List.nil_append]
    rcases hsent with ⟨hnull, rfl⟩ | ⟨hattached, rfl⟩
    · rw [if_pos (hendpoint ▸ hnull)]; rfl
    · rw [if_neg (hendpoint ▸ hattached), ← hbyte]
      simp [Event.sendsTo]
  · have hself : (fireTimer x t).chan x.chan = { t.chan x.chan with txTimer := some t.sched.nextSeq } := by
      rw [e]; exact (State.chan_congr rfl _).trans (State.chan_setChan_self _ _ t)
    have htrace : (fireTimer x t).trace = t.trace := by rw [e]; rfl
    exact ⟨xs, by rw [htrace, hxs], by rw [hself]; exact hendpoint, .inl ⟨by rw [hself]; exact hbusy, by rw [hself]; exact hbyte, hnone⟩⟩

/-- `FireDue` delivers the byte of a busy transmitter at most once: an idle one has no timer left. -/
theorem delivering_fireDue {k : Chan} {s : State} (h : CardInv s) (hbusy : (s.chan k).txReady = false) :
    Delivering k s (fireDue s) := by
  have hturn : ∀ t x, CardInv t ∧ Delivering k s t → nextDue t = some x →
      CardInv (fireTimer x t) ∧ Delivering k s (fireTimer x t) := by
    rintro t x ⟨hinv, hdelivering⟩ hx
    obtain ⟨hmem, -⟩ := nextDue_eq_some hx
    refine ⟨hinv.fireTimer hmem, ?_⟩
    by_cases hk : k = x.chan
    · subst hk
      exact hdelivering.then_fire (hinv.timersOf_of_mem hmem).1
    · exact hdelivering.then_same (transmitterSame_fireTimer hk t)
  exact (fireDue_induct (P := fun t => CardInv t ∧ Delivering k s t) hturn
    ⟨h, [], (List.append_nil _).symm, rfl, .inl ⟨hbusy, rfl, nofun⟩⟩).2

/-- After a port operation an idle transmitter's timer, if it has just got one, is a character time away. -/
theorem CardInv.timersOf_portOperation {k : Chan} {v w : State} (h : CardInv v) (hidle : (v.chan k).txReady = true)
    (hp : PortOperation v w) : ∀ y ∈ w.timersOf k, y.deadline = v.sched.now + 572917 := by
  obtain ⟨new, htimers, hnew⟩ := portOperation_timers hp
  have hnil : v.timersOf k = [] := by
    rcases (h.channel k).coherent with ⟨-, -, hnil⟩ | ⟨hbusy, -⟩
    · exact hnil
    · rw [hidle] at hbusy; cases hbusy
  intro y hy
  unfold State.timersOf at hy hnil
  rw [htimers, List.filter_append, hnil, List.nil_append] at hy
  exact hnew y (List.mem_filter.1 hy).1

/-- What is delivered from an idle transmitter, or from a busy one, in the terms of R310. -/
theorem Delivering.events {k : Chan} {s t : State} (h : Delivering k s t) :
    ∃ new, t.trace = s.trace ++ new ∧
      (new.filter (fun e => e.event.sendsTo k)).length =
        (if (t.chan k).txReady = true ∧ (s.chan k).endpoint ≠ .null then 1 else 0) ∧
      ∀ e ∈ new, e.event.sendsTo k = true → e.event = .epSend k (s.chan k).txByte := by
  obtain ⟨new, htrace, -, hcases⟩ := h
  refine ⟨new, htrace, ?_⟩
  rcases hcases with ⟨hbusy, -, hnone⟩ | ⟨hidle, hevents⟩
  · rw [hbusy, filter_sendsTo_of_undelivered hnone]
    refine ⟨rfl, fun e he hsends => ?_⟩
    rw [hnone e he] at hsends
    cases hsends
  · rw [hidle, ← List.length_map (f := Emitted.event), hevents]
    have hmem (e : Emitted) (he : e ∈ new) (hsends : e.event.sendsTo k = true) :
        e.event ∈ (new.filter (fun e => e.event.sendsTo k)).map Emitted.event :=
      List.mem_map_of_mem (List.mem_filter.2 ⟨he, hsends⟩)
    rw [hevents] at hmem
    by_cases hnull : (s.chan k).endpoint = .null
    · rw [if_pos hnull] at hmem ⊢
      exact ⟨by simp [hnull], fun e he hsends => nomatch hmem e he hsends⟩
    · rw [if_neg hnull] at hmem ⊢
      exact ⟨by simp [hnull], fun e he hsends => List.mem_singleton.1 (hmem e he hsends)⟩

/-- A step from an idle transmitter delivers nothing: it has no due timer, since a step is shorter than a character time. -/
theorem step_idle_undelivered {s t : State} {k : Chan} (hinv : s.Inv) (h : step s = .next t)
    (hidle : (s.chan k).txReady = true) : ∃ new, t.trace = s.trace ++ new ∧ ∀ e ∈ new, e.event.sendsTo k = false := by
  obtain ⟨v, w, u, hv, hw, hu, -, h18, rfl⟩ := step_next h
  have hcard : CardInv v := hinv.cardInv.of_cardSame (cardSame_of_latched hv)
  have hidleV : (v.chan k).txReady = true := by rw [State.chan_congr hv.card.uart]; exact hidle
  have hnotDue : ∀ y ∈ (billStep u).timersOf k, (billStep u).sched.now < y.deadline := by
    intro y hy
    have hyw : y ∈ w.timersOf k := by
      unfold State.timersOf at hy ⊢
      rw [← hu.card.sched]
      exact hy
    rw [hcard.timersOf_portOperation hidleV hw y hyw, ← hw.coreSame.now, ← hu.card.sched]
    show u.sched.now + billedNs u.opCycles < _
    rw [billedNs_eq (by omega)]
    omega
  obtain ⟨xs, hxs, hquiet⟩ := portOperation_undelivered k hw
  obtain ⟨ys, hys, lquiet⟩ := (transmitterSame_fireDue hnotDue).undelivered
  refine ⟨xs ++ ys, ?_, fun e he => ?_⟩
  · rw [hys, ← List.append_assoc]
    refine congrArg (· ++ ys) ?_
    show u.trace = s.trace ++ xs
    rw [hu.card.trace, hxs, hv.card.trace]
  · rcases List.mem_append.1 he with he | he
    · exact hquiet e he
    · exact lquiet e he

/-- A step from a busy transmitter: the instruction leaves it alone, and `FireDue` delivers its byte or does not. -/
theorem step_busy_delivering {s t : State} {k : Chan} (hinv : s.Inv) (h : step s = .next t)
    (hbusy : (s.chan k).txReady = false) : Delivering k s t := by
  obtain ⟨v, w, u, hv, hw, hu, -, -, rfl⟩ := step_next h
  have hcard : CardInv v := hinv.cardInv.of_cardSame (cardSame_of_latched hv)
  have hsv : TransmitterSame k s v := .silent hv.card.trace (State.chan_congr hv.card.uart k)
  have hvw : TransmitterSame k v w := by
    rcases portOperation_transmitter k hw with hsame | ⟨hidle, -⟩
    · exact hsame
    · rw [hsv.txReady, hbusy] at hidle; cases hidle
  have hwu : TransmitterSame k w (billStep u) := .silent hu.card.trace (State.chan_congr hu.card.uart k)
  have hsame : TransmitterSame k s (billStep u) := (hsv.trans hvw).trans hwu
  have hbilled : CardInv (billStep u) := ((hcard.portOperation hw).of_cardSame hu.card).congr rfl rfl rfl rfl rfl
  exact (delivering_fireDue hbilled (hsame.txReady.trans hbusy)).after_same hsame

/-- Settles O22: from an idle transmitter (`step_idle_undelivered`) and from a busy one (`step_busy_delivering`). -/
theorem deliveredByteWasHeld : Obligations.DeliveredByteWasHeld := by
  intro s t k hinv h
  cases hready : (s.chan k).txReady with
  | true =>
    obtain ⟨new, htrace, hnone⟩ := step_idle_undelivered hinv h hready
    refine ⟨new, htrace, ?_, fun e he hsends => ?_⟩
    · rw [filter_sendsTo_of_undelivered hnone]; rfl
    · rw [hnone e he] at hsends; cases hsends
  | false =>
    obtain ⟨new, htrace, hcount, hbyte⟩ := (step_busy_delivering hinv h hready).events
    exact ⟨new, htrace, by simpa using hcount, hbyte⟩

end Sys2Proof.Machine

/-! The ALU group (41_arithmetic.md, 42_logical.md): its opcode bytes, how it ends, DAA after an addition of decimal digits, and
the statements O29 to O31 and O36. -/

namespace Sys2Proof.Machine

/-! ### Opcode bytes (30_encoding.md R93) -/

theorem encode_aluR (op : AluOp) (r : Reg8) : encode (.aluR op r) = [0b10#2 ++ op.code ++ r.code] := by
  cases op <;> cases r <;> rfl
theorem encode_aluM (op : AluOp) : encode (.aluM op) = [0b10#2 ++ op.code ++ 0b110#3] := by cases op <;> rfl
theorem encode_aluI (op : AluOp) (imm : Byte) : encode (.aluI op imm) = [0b11#2 ++ op.code ++ 0b110#3, imm] := by
  cases op <;> rfl

/-! ### How an ALU instruction ends -/

/-- An ALU operation on A and an operand byte: A and the flags, and the frame. CMP is the case where A keeps its value. -/
theorem alu_done (op : AluOp) (v : Byte) (cycles : Nat) (s : State) :
    let t : State := { alu op v s with opCycles := cycles }
    AluDoes op s.a v s.flags.carry t.a t.flags ∧ RegsSameBut [.a] s t ∧ t.sp = s.sp ∧ t.pc = s.pc ∧
    InstrFrame [] [] cycles s t := by
  obtain ⟨-, -, hframe⟩ := setReg_flags_done .a (aluResult op s.a v s.flags).1 (aluResult op s.a v s.flags).2 cycles s
  exact ⟨aluResult_does op s.a v s.flags, hframe⟩

/-- The same with the byte or the draw at HL as operand. -/
theorem aluMem_done (op : AluOp) (cycles : Nat) (s : State) :
    let t : State := { alu op (readM s).1 (readM s).2 with opCycles := cycles }
    AluDoes op s.a (readValue [] s.hl s) s.flags.carry t.a t.flags ∧ RegsSameBut [.a] s t ∧ t.sp = s.sp ∧ t.pc = s.pc ∧
    InstrFrame [s.hl] [] cycles s t := by
  simp only [readM, memRead_eq]
  refine ⟨aluResult_does op s.a _ s.flags, fun r hr => ?_, rfl, rfl, instrFrame_reads _ ⟨_, _, _, _, _, _, _, _, _, _, rfl⟩⟩
  cases r with
  | a => simp at hr
  | b | c | d | e | h | l => rfl

/-! ### The decimal sum -/

/-- The number two decimal digits show. -/
def decimalValue (v : Byte) : Nat := 10 * (v.toNat / 16) + v.toNat % 16

/-- DAA corrects the sum of two-digit decimal numbers: the low digit first, its carry being AC or a digit above 9. -/
theorem decimalAdjust_sum {a v sum : Byte} {cy : Bool} {f : Flags} (ha : a.toNat % 16 ≤ 9 ∧ a.toNat / 16 ≤ 9)
    (hv : v.toNat % 16 ≤ 9 ∧ v.toNat / 16 ≤ 9) (h : AddsTo a v cy sum f) :
    (decimalAdjust sum f).1.toNat % 16 ≤ 9 ∧ (decimalAdjust sum f).1.toNat / 16 ≤ 9 ∧
    decimalValue (decimalAdjust sum f).1 + 100 * (decimalAdjust sum f).2.carry.toNat =
      decimalValue a + decimalValue v + cy.toNat := by
  obtain ⟨haLow, haHigh⟩ := ha
  obtain ⟨hvLow, hvHigh⟩ := hv
  obtain ⟨hsum, hac, -⟩ := h
  obtain ⟨hval, -, hcarry, -⟩ := decimalAdjust_spec sum f
  obtain ⟨hboth, hlow, hhigh, hnone⟩ := daaCorrection_cases sum f
  have hcy := cy.toNat_le
  have hsumCarry := f.carry.toNat_le
  have hresCarry := (decimalAdjust sum f).2.carry.toNat_le
  have hlowIff : (f.auxCarry = true ∨ 9 < sum.toNat % 16) ↔ 9 < a.toNat % 16 + v.toNat % 16 + cy.toNat := by
    rw [hac, decide_eq_true_iff]
    omega
  have hhighIff : (f.carry = true ∨ 9 < sum.toNat / 16 ∨ (9 ≤ sum.toNat / 16 ∧ 9 < sum.toNat % 16)) ↔
      99 < decimalValue a + decimalValue v + cy.toNat := by
    rw [← Bool.toNat_eq_one]
    unfold decimalValue
    omega
  rw [hlowIff, hhighIff] at hboth hlow hhigh hnone
  rw [hhighIff, ← Bool.toNat_eq_one] at hcarry
  unfold decimalValue at *
  by_cases hl : 9 < a.toNat % 16 + v.toNat % 16 + cy.toNat <;>
    by_cases hh : 99 < 10 * (a.toNat / 16) + a.toNat % 16 + (10 * (v.toNat / 16) + v.toNat % 16) + cy.toNat
  · rw [hboth ⟨hl, hh⟩] at hval
    omega
  · rw [hlow ⟨hl, hh⟩] at hval
    omega
  · rw [hhigh ⟨hl, hh⟩] at hval
    omega
  · rw [hnone ⟨hl, hh⟩] at hval
    omega

/-! ### The statements -/

/-- Settles O29: the operand is a register. -/
theorem aluWithRegister : Obligations.AluWithRegister :=
  fun op r s => ⟨encode_aluR op r, _, exec_aluR op r s, alu_done op (s.reg r) 4 s⟩

/-- Settles O30: the operand is in the instruction. -/
theorem aluWithImmediate : Obligations.AluWithImmediate :=
  fun op imm s => ⟨encode_aluI op imm, _, exec_aluI op imm s, alu_done op imm 7 s⟩

/-- Settles O31: the operand is read at HL. -/
theorem aluWithMemory : Obligations.AluWithMemory :=
  fun op s => ⟨encode_aluM op, _, exec_aluM op s, aluMem_done op 7 s⟩

/-- Settles O36: ACI is `add8` with CY, and DAA corrects its sum (`decimalAdjust_sum`). -/
theorem daaGivesTheDecimalSum : Obligations.DaaGivesTheDecimalSum := by
  intro v s haLow haHigh hvLow hvHigh
  refine ⟨_, _, exec_aluI .adc v s, rfl, ?_⟩
  exact decimalAdjust_sum ⟨haLow, haHigh⟩ ⟨hvLow, hvHigh⟩ (add8_addsTo s.a v s.flags.carry s.flags)

end Sys2Proof.Machine

/-! The stack round trip, IN and OUT, machine control and the illegal opcodes (44_stack_io_control.md, 45_io_ports.md): how each
ends, and the statements O43, O45 to O50. -/

namespace Sys2Proof.Machine

/-! ### PUSH and then POP -/

/-- A push into RAM records no fault. -/
theorem push16_of_ram {s : State} (hhigh : regionOf (s.sp - 1#16) = .ram) (hlow : regionOf (s.sp - 2#16) = .ram) (v : Word) :
    push16 v s = { s with ram := (push16 v s).ram, sp := s.sp - 2#16 } := by
  rw [push16_eq, memWrite_ram hhigh, memWrite_ram hlow]

/-- A pair written with its own value is unchanged, the flags of PSW included. -/
theorem setStackPair_stackPair (p : StackPair) {s u : State} (hreg : ∀ r, u.reg r = s.reg r) (hflags : u.flags = s.flags) :
    u.setStackPair p (s.stackPair p) = u := by
  cases p with
  | bc =>
    simp only [State.setStackPair, State.stackPair, State.bc, hiByte_joinBytes, loByte_joinBytes]
    rw [← show u.b = s.b from hreg .b, ← show u.c = s.c from hreg .c]
  | de =>
    simp only [State.setStackPair, State.stackPair, State.de, hiByte_joinBytes, loByte_joinBytes]
    rw [← show u.d = s.d from hreg .d, ← show u.e = s.e from hreg .e]
  | hl =>
    simp only [State.setStackPair, State.stackPair, State.hl, hiByte_joinBytes, loByte_joinBytes]
    rw [← show u.h = s.h from hreg .h, ← show u.l = s.l from hreg .l]
  | psw =>
    simp only [State.setStackPair, State.stackPair, hiByte_joinBytes, loByte_joinBytes, flagsOfByte_flagByte]
    rw [← show u.a = s.a from hreg .a, ← hflags]

/-- A pop of two bytes that memory holds. -/
theorem exec_pop_of_peek {p : StackPair} {t : State} {v : Word} (hlow : t.peek t.sp = some (loByte v))
    (hhigh : t.peek (t.sp + 1#16) = some (hiByte v)) :
    exec (.pop p) t = .next { ({ t with sp := t.sp + 2#16 } : State).setStackPair p v with opCycles := 10 } := by
  rw [exec_pop, popPair, pop16_of_peek hlow hhigh, joinBytes_hiByte_loByte]
  rfl

/-- Settles O43: the pop finds the two bytes of the push, and writes the pair with its own value. -/
theorem stackRoundTrip : Obligations.StackRoundTrip := by
  intro p s hhigh hlow
  set m := (push16 (s.stackPair p) s).ram
  set t : State := { s with ram := m, sp := s.sp - 2#16, opCycles := 11 }
  have hpush : exec (.push p) s = .next t := by
    rw [exec_push, pushPair, push16_of_ram hhigh hlow, State.done_eq]
  have htpeek (a : Word) : t.peek a = (push16 (s.stackPair p) s).peek a :=
    State.peek_congr (s := push16 (s.stackPair p) s) (t := t) (by rw [push16_of_ram hhigh hlow]) rfl a
  have hslot : t.sp + 1#16 = s.sp - 1#16 := show s.sp - 2#16 + 1#16 = _ by bv_omega
  have hsp : t.sp + 2#16 = s.sp := show s.sp - 2#16 + 2#16 = _ by bv_omega
  have hpop := exec_pop_of_peek (p := p) (t := t) ((htpeek _).trans (peek_push16_low hlow (s.stackPair p)))
    ((htpeek _).trans (by rw [hslot]; exact peek_push16_high hhigh (s.stackPair p)))
  have hpair := setStackPair_stackPair p (s := s) (u := { t with sp := t.sp + 2#16 }) (fun r => by cases r <;> rfl) rfl
  rw [hpair, hsp] at hpop
  exact ⟨t, _, hpush, hpop, rfl⟩

/-! ### How IN and OUT end -/

/-- IN, by what its port read yields and where it leads. -/
theorem inPort_done {port v : Byte} {s w : State} (h : portRead port s = (v, w)) :
    ∃ t, exec (.inPort port) s = .next t ∧ t.a = v ∧ RegsSameBut [.a] s t ∧ StackPcFlagsSame s t ∧ InstrFrame [] [] 10 w t := by
  have hcore : CoreSame s w := by
    have := portRead_coreSame port s
    rwa [h] at this
  refine ⟨{ w with a := v, opCycles := 10 }, ?_, rfl, fun r hr => ?_, ⟨hcore.sp, hcore.pc, hcore.flags⟩,
    instrFrame_registers ⟨_, _, _, _, _, _, _, _, _, _, rfl⟩⟩
  · show inputFrom port s = _
    rw [inputFrom, h]
    rfl
  · rw [← hcore.regs r List.not_mem_nil]
    cases r with
    | a => simp at hr
    | b | c | d | e | h | l => rfl

/-- OUT, by where its port write leads. -/
theorem outPort_done {port : Byte} {s w : State} (h : portWrite port s.a s = w) :
    ∃ t, exec (.outPort port) s = .next t ∧ RegsSameBut [] s t ∧ StackPcFlagsSame s t ∧ InstrFrame [] [] 10 w t := by
  have hcore : CoreSame s w := h ▸ portWrite_coreSame port s.a s
  refine ⟨{ w with opCycles := 10 }, ?_, fun r hr => ?_, ⟨hcore.sp, hcore.pc, hcore.flags⟩,
    instrFrame_registers ⟨_, _, _, _, _, _, _, _, _, _, rfl⟩⟩
  · show outputTo port s = _
    rw [outputTo, h]
    rfl
  · rw [← hcore.regs r hr]
    cases r <;> rfl

/-! ### The port maps (10_state.md R49) -/

theorem polledValue_ne_none_iff (port : Byte) (s : State) :
    polledValue port s ≠ none ↔ port ∈ [0x00#8, 0x01#8, 0x03#8, 0x04#8, 0x0E#8] := by
  unfold polledValue
  split_ifs <;> simp_all

theorem inPortOf_undefined {port : Byte} (h : port ∉ [0x00#8, 0x01#8, 0x02#8, 0x03#8, 0x04#8, 0x06#8, 0x0E#8]) :
    inPortOf port = none := by
  simp only [List.mem_cons, List.not_mem_nil, or_false, not_or] at h
  obtain ⟨h0, h1, h2, h3, h4, h6, hE⟩ := h
  simp only [inPortOf, h0, h1, h2, h3, h4, h6, hE, if_false]

theorem outPortOf_undefined {port : Byte}
    (h : port ∉ [0x00#8, 0x01#8, 0x02#8, 0x03#8, 0x05#8, 0x06#8, 0x07#8, 0x0E#8, 0x11#8]) : outPortOf port = none := by
  simp only [List.mem_cons, List.not_mem_nil, or_false, not_or] at h
  obtain ⟨h0, h1, h2, h3, h5, h6, h7, hE, h11⟩ := h
  simp only [outPortOf, h0, h1, h2, h3, h5, h6, h7, hE, h11, if_false]

theorem portRead_undefined {port : Byte} (h : inPortOf port = none) (s : State) :
    portRead port s = (Config.freeByte s.draws,
      { s with fault := some (s.fault.getD (.undefinedPortRead port)), draws := s.draws + 1 }) := by
  rw [portRead, h]
  rfl

theorem portWrite_undefined {port : Byte} (h : outPortOf port = none) (v : Byte) (s : State) :
    portWrite port v s = { s with fault := some (s.fault.getD (.undefinedPortWrite port)) } := by
  rw [portWrite, h]
  rfl

/-! ### The statements about ports -/

/-- Settles O45: a polled port answers its byte and changes nothing (`portRead_polled`). -/
theorem inReadsThePolledPorts : Obligations.InReadsThePolledPorts :=
  ⟨fun _ _ _ h => ⟨rfl, inPort_done (portRead_polled h)⟩, polledValue_ne_none_iff⟩

/-- Settles O46: the read of each port is evaluated, that of 0x06 by `rxPop_nil` and `rxPop_cons`. -/
theorem inReadsTheDataPorts : Obligations.InReadsTheDataPorts := by
  intro s reads
  refine ⟨inPort_done rfl, fun h => inPort_done (rxPop_nil h), fun b rest h => ?_, fun port h => ?_⟩
  · exact ⟨_, flowXon_controls _ _, inPort_done (rxPop_cons h)⟩
  · exact inPort_done (portRead_undefined (inPortOf_undefined h) s)

/-- Settles O47: the write of each port is evaluated. -/
theorem outDrivesTheBusPorts : Obligations.OutDrivesTheBusPorts := by
  intro s writes event
  refine ⟨fun _ => rfl, outPort_done rfl, outPort_done rfl, outPort_done rfl, outPort_done rfl, outPort_done rfl,
    outPort_done rfl, outPort_done rfl, fun port h => ?_⟩
  exact outPort_done (portWrite_undefined (outPortOf_undefined h) s.a s)

section Uart
variable {s : State}

/-- OUT 0x05 of a byte that selects a channel. -/
theorem portWrite_select {v : Byte} {j : Chan} (h : uartSelectOf v = some j) :
    portWrite 0x05#8 v s = { s with uart := { s.uart with sel := j } } := by
  show writeOutPort .uartSelect v s = _
  simp only [writeOutPort, h]

/-- OUT 0x05 of any other byte. -/
theorem portWrite_select_fault {v : Byte} (h : uartSelectOf v = none) :
    portWrite 0x05#8 v s = { s with fault := some (s.fault.getD (.badUartSelect v)) } := by
  show writeOutPort .uartSelect v s = _
  simp only [writeOutPort, h]
  rfl

/-- OUT 0x06 to an idle transmitter. -/
theorem portWrite_transmit (h : (s.chan s.uart.sel).txReady = true) (v : Byte) :
    portWrite 0x06#8 v s =
      { s.setChan s.uart.sel { s.chan s.uart.sel with txReady := false, txByte := v, txTimer := some s.sched.nextSeq } with
        sched := { s.sched with
          nextSeq := s.sched.nextSeq + 1
          timers := s.sched.timers ++
            [{ handle := s.sched.nextSeq, deadline := s.sched.now + 572917, seq := s.sched.nextSeq, chan := s.uart.sel }] } } := by
  show writeOutPort .uartData v s = _
  rw [writeOutPort, if_pos h]
  rfl

/-- OUT 0x06 to a busy one. -/
theorem portWrite_overrun (h : (s.chan s.uart.sel).txReady = false) (v : Byte) :
    portWrite 0x06#8 v s = { s with fault := some (s.fault.getD (.txOverrun s.uart.sel)) } := by
  show writeOutPort .uartData v s = _
  rw [writeOutPort, if_neg (by rw [h]; exact Bool.false_ne_true)]
  rfl

end Uart

/-- Settles O48: selection by the one-hot bytes, transmission by the state of the transmitter. -/
theorem outDrivesTheUart : Obligations.OutDrivesTheUart := by
  intro s writes k
  refine ⟨fun j h => ?_, fun h => ?_, fun h => ?_, fun h => ?_⟩
  · exact outPort_done (portWrite_select (uartSelectOf_oneHot s.a j h))
  · exact outPort_done (portWrite_select_fault (uartSelectOf_other s.a h))
  · exact outPort_done (portWrite_transmit h s.a)
  · exact outPort_done (portWrite_overrun h s.a)

/-! ### Machine control and the illegal opcodes -/

/-- Settles O49: each writes control bits of its own and nothing else. -/
theorem machineControl : Obligations.MachineControl := by
  intro s controls
  refine ⟨⟨rfl, _, rfl, ?_⟩, ⟨rfl, _, rfl, ?_⟩, ⟨rfl, _, rfl, ?_⟩, rfl, _, rfl, ?_⟩ <;>
    exact ⟨fun r _ => by cases r <;> rfl, ⟨rfl, rfl, rfl⟩, instrFrame_registers ⟨_, _, _, _, _, _, _, _, _, _, rfl⟩⟩

/-- Settles O50: the fault is recorded and the sentinel returned. -/
theorem illegalOpcodesAreRecorded : Obligations.IllegalOpcodesAreRecorded := by
  intro x s
  refine ⟨encode_illegal x, _, exec_illegal x s, ?_, billedCycles_sentinel, fun r _ => ?_, ⟨rfl, rfl, rfl⟩,
    instrFrame_registers ⟨_, _, _, _, _, _, _, _, _, _, rfl⟩⟩
  · show 30 < Config.sentinelExcess + 31
    omega
  · cases r <;> rfl

end Sys2Proof.Machine

/-! The environment's operations (46_uart_bank.md, 47_bus_interface.md): reception of a byte, of a batch and of a list of bytes,
the host's operations and strobes, readiness; and the statements O55 to O60. -/

namespace Sys2Proof.Machine

/-! ### Reception -/

theorem enqueueRx_filtered {b : Byte} (h : b = 0x11#8 ∨ b = 0x13#8) (k : Chan) (s : State) : enqueueRx k b s = s := by
  rw [enqueueRx, if_pos ((isFlowControl_iff b).2 h)]

theorem enqueueRx_queued {b : Byte} (h : ¬(b = 0x11#8 ∨ b = 0x13#8)) (k : Chan) (s : State) :
    enqueueRx k b s = flowXon k (flowXoff k (s.setChan k (pushRx b (s.chan k)))) := by
  rw [enqueueRx, if_neg (mt (isFlowControl_iff b).1 h)]

/-- The filter in the terms of the statements: the bytes that are neither XON nor XOFF. -/
theorem filter_flowControl (bytes : List Byte) :
    bytes.filter (fun b => !isFlowControl b) = bytes.filter (fun b => b ≠ 0x11#8 ∧ b ≠ 0x13#8) := by
  refine List.filter_congr fun b _ => ?_
  rw [Bool.eq_iff_iff, Bool.not_eq_true', Bool.eq_false_iff, decide_eq_true_iff, ne_eq, isFlowControl_iff, not_or]

/-- Settles O55: the byte is filtered or pushed (`pushRx_eq`), then flow control (`flow_controls`). -/
theorem receivedByteIsQueued : Obligations.ReceivedByteIsQueued := by
  intro k b s c queued
  refine ⟨enqueueRx k b s, rfl, rfl, fun code hcode => ?_, ?_⟩
  · have hb : BitVec.ofNat 8 code = b := BitVec.eq_of_toNat_eq (by rw [BitVec.toNat_ofNat, ← hcode])
    show Host.Outcome.next (receiveKeystroke k code s) = _
    rw [receiveKeystroke, hb, ite_not]
  · by_cases h : b = 0x11#8 ∨ b = 0x13#8
    · rw [if_pos h]; exact enqueueRx_filtered h k s
    · rw [if_neg h, enqueueRx_queued h, pushRx_eq]
      exact flow_controls k _

/-- Settles O56: the batch fits or overflows (`pushBatch_fits`, `pushBatch_overflows`), then flow control. -/
theorem batchIsQueued : Obligations.BatchIsQueued := by
  intro k bytes s hbound c data
  have hc : c.fifo.length ≤ 2048 := hbound
  have hstep : envStep (.enqueueRxBatch k bytes) s = .next (flowXon k (flowXoff k (s.setChan k (pushBatch data c)))) := by
    show Host.Outcome.next (enqueueRxBatch k bytes s) = _
    rw [enqueueRxBatch, filter_flowControl]
  by_cases hfits : data.length ≤ 2048 - c.fifo.length
  · rw [pushBatch_fits hfits] at hstep
    refine ⟨c.fifo ++ data, c.rxOverrunDrops, _, hstep, flow_controls k _, ?_, ?_, fun _ => rfl, fun hover => ?_⟩
    · rw [List.length_append]; omega
    · rw [List.length_append]; omega
    · omega
  · rw [pushBatch_overflows (by omega)] at hstep
    refine ⟨_, _, _, hstep, flow_controls k _, ?_, ?_, fun hno => ?_, fun _ => rfl⟩
    · simp only [List.length_append, List.length_drop, List.length_take]; omega
    · simp only [List.length_append, List.length_drop, List.length_take]; omega
    · omega

/-- The receive side of channel k outside flow control: what its FIFO holds and how many bytes it has lost. -/
theorem flowControl_fifo (k : Chan) (s : State) :
    ((flowXon k (flowXoff k s)).chan k).fifo = (s.chan k).fifo ∧
    ((flowXon k (flowXoff k s)).chan k).rxOverrunDrops = (s.chan k).rxOverrunDrops := by
  have hself (c : Channel) (tr : List Emitted) : ({ s.setChan k c with trace := tr } : State).chan k = c :=
    (State.chan_congr rfl k).trans (State.chan_setChan_self k c s)
  have hcontrols := flow_controls k s
  unfold FlowControlledBy at hcontrols
  dsimp only at hcontrols
  split_ifs at hcontrols <;> rw [hcontrols]
  · rw [hself]; exact ⟨rfl, rfl⟩
  · rw [hself]; exact ⟨rfl, rfl⟩
  · exact ⟨rfl, rfl⟩

/-- One received byte at the back of a FIFO within its bound: the newest 2048 stay. -/
theorem enqueueRx_fifo {k : Chan} {b : Byte} {s : State} (hbound : (s.chan k).fifo.length ≤ 2048)
    (h : ¬(b = 0x11#8 ∨ b = 0x13#8)) :
    ((enqueueRx k b s).chan k).fifo = ((s.chan k).fifo ++ [b]).drop ((s.chan k).fifo.length + 1 - 2048) ∧
    ((enqueueRx k b s).chan k).rxOverrunDrops = (s.chan k).rxOverrunDrops + ((s.chan k).fifo.length + 1 - 2048) := by
  rw [enqueueRx_queued h]
  obtain ⟨hfifo, hdrops⟩ := flowControl_fifo k (s.setChan k (pushRx b (s.chan k)))
  rw [hfifo, hdrops, State.chan_setChan_self, pushRx_eq]
  by_cases hfull : (s.chan k).fifo.length = 2048
  · rw [if_pos hfull, hfull]
    refine ⟨?_, rfl⟩
    show (s.chan k).fifo.tail ++ [b] = _
    rw [List.drop_append_of_le_length (by omega), List.drop_one]
  · rw [if_neg hfull, show (s.chan k).fifo.length + 1 - 2048 = 0 by omega]
    exact ⟨rfl, rfl⟩

/-- Settles O57: by induction on the bytes; a byte dropped early would have been dropped at the end. -/
theorem fifoKeepsTheNewest : Obligations.FifoKeepsTheNewest := by
  intro k bytes
  induction bytes with
  | nil =>
    intro s hbound
    simp only [List.filter_nil, List.append_nil, List.foldl_nil]
    rw [show (s.chan k).fifo.length - 2048 = 0 by omega]
    exact ⟨rfl, rfl⟩
  | cons b bytes ih =>
    intro s hbound all t
    have hfold : t = bytes.foldl (fun u b => enqueueRx k b u) (enqueueRx k b s) := rfl
    by_cases hb : b = 0x11#8 ∨ b = 0x13#8
    · have hall : all = (s.chan k).fifo ++ bytes.filter (fun b => b ≠ 0x11#8 ∧ b ≠ 0x13#8) := by
        refine congrArg _ (List.filter_cons_of_neg ?_)
        rw [decide_eq_true_iff, ← not_or, not_not]
        exact hb
      rw [hfold, hall, enqueueRx_filtered hb]
      exact ih s hbound
    · obtain ⟨hfifo, hdrops⟩ := enqueueRx_fifo hbound hb
      set rest := bytes.filter (fun b => b ≠ 0x11#8 ∧ b ≠ 0x13#8)
      have hall : all = (s.chan k).fifo ++ [b] ++ rest := by
        rw [List.append_assoc]
        refine congrArg _ (List.filter_cons_of_pos ?_)
        rwa [decide_eq_true_iff, ← not_or]
      have hlen : all.length = (s.chan k).fifo.length + 1 + rest.length := by
        rw [hall, List.length_append, List.length_append, List.length_singleton]
      have hnow : ((enqueueRx k b s).chan k).fifo ++ rest = all.drop ((s.chan k).fifo.length + 1 - 2048) := by
        rw [hfifo, hall]
        refine (List.drop_append_of_le_length ?_).symm
        rw [List.length_append, List.length_singleton]
        omega
      obtain ⟨ihFifo, ihDrops⟩ := ih (enqueueRx k b s) (by rw [hfifo]; simp; omega)
      rw [hnow, List.length_drop] at ihFifo ihDrops
      rw [hfold]
      constructor
      · rw [ihFifo, List.drop_drop]
        exact congrArg (all.drop ·) (by omega)
      · rw [ihDrops, hdrops]
        omega

/-! ### The host's operations -/

/-- The offset an address selects, as a number, and whether it is one. -/
theorem selectOffset (addr : Byte) :
    (addr.extractLsb' 0 3).toNat = addr.toNat % 8 ∧ (addr.extractLsb' 0 3 != 0#3) = decide (addr.toNat % 8 ≠ 0) := by
  revert addr
  decide

theorem attachEndpoint_offered {k : Chan} {s : State} (hk : k.toNat < s.cfg.numTerms.toNat) (ep : Endpoint) :
    attachEndpoint k ep s = .next (bindEndpoint k ep s) := if_pos hk

theorem attachEndpoint_refused {k : Chan} {s : State} (hk : s.cfg.numTerms.toNat ≤ k.toNat) (ep : Endpoint) :
    attachEndpoint k ep s = .refused (.attachBeyondNumTerms k) := if_neg (Nat.not_lt_of_le hk)

/-- Settles O58: each is evaluated; `attach` by the number of the channel. -/
theorem hostOperations : Obligations.HostOperations := by
  intro s
  refine ⟨fun addr => ?_, rfl, fun _ => rfl, fun _ => rfl, ?_, fun k => ⟨rfl, fun hk => ?_, fun hk => ?_⟩⟩
  · obtain ⟨hoffset, hselects⟩ := selectOffset addr
    exact ⟨_, rfl, hoffset, congrArg (s.bus.selected || ·) hselects, rfl⟩
  · have hib : ∀ o : BitVec 3, (if o = 5#3 then 0x10#8 else 0x00#8) = if o.toNat = 5 then 0x10#8 else 0x00#8 := by decide
    exact hib s.bus.ioOffset
  · exact ⟨attachEndpoint_offered hk .serial, attachEndpoint_offered hk .session⟩
  · exact ⟨attachEndpoint_refused hk .serial, attachEndpoint_refused hk .session⟩

/-! ### The strobes -/

section Strobe
variable {s : State}

theorem hostStrobe_unselected (h : s.bus.selected = false) (obs : Bool) (v : Byte) : hostStrobe obs v s = s := by
  rw [hostStrobe, if_pos h]

theorem hostStrobe_pending (h : s.bus.selected = true) (hp : s.bus.obsSeen = true ∨ s.bus.cbsSeen = true) (obs : Bool) (v : Byte) :
    hostStrobe obs v s = { s with fault := some (s.fault.getD .doubleStrobe) } := by
  rw [hostStrobe, if_neg (by rw [h]; nofun), if_pos (by rwa [BusLatches.strobePending, Bool.or_eq_true])]
  rfl

theorem hostStrobe_latches (h : s.bus.selected = true) (hobs : s.bus.obsSeen = false) (hcbs : s.bus.cbsSeen = false)
    (obs : Bool) (v : Byte) : hostStrobe obs v s = { s with bus := { s.bus with
      obsSeen := obs, cbsSeen := !obs, obscbsOffset := s.bus.ioOffset, obscbsData := v } } := by
  rw [hostStrobe, if_neg (by rw [h]; nofun), if_neg (by rw [BusLatches.strobePending, hobs, hcbs]; nofun)]

end Strobe

/-- Settles O59: the three cases of a strobe, and the read of port 0x02. -/
theorem strobesLatchOrFault : Obligations.StrobesLatchOrFault := by
  intro v s
  refine ⟨fun h => ?_, fun h hp => ?_, fun h hobs hcbs => ?_, fun t h hobs hcbs ht => ?_⟩
  · exact ⟨congrArg _ (hostStrobe_unselected h true v), congrArg _ (hostStrobe_unselected h false v)⟩
  · exact ⟨congrArg _ (hostStrobe_pending h hp true v), congrArg _ (hostStrobe_pending h hp false v)⟩
  · constructor
    · refine congrArg _ ((hostStrobe_latches h hobs hcbs true v).trans ?_)
      rw [hcbs]; rfl
    · refine congrArg _ ((hostStrobe_latches h hobs hcbs false v).trans ?_)
      rw [hobs]; rfl
  · have hdata : t.bus.obscbsData = v := by
      rcases ht with ht | ht
      · cases (congrArg Host.Outcome.next (hostStrobe_latches h hobs hcbs true v)).symm.trans ht; rfl
      · cases (congrArg Host.Outcome.next (hostStrobe_latches h hobs hcbs false v)).symm.trans ht; rfl
    exact ⟨_, rfl, congrArg (~~~·) hdata, rfl, rfl⟩

/-! ### Readiness -/

/-- Readiness by the offset `n` (R349): a pending strobe counts from offset 4 on, and offset 0 has no `rbi` bit. -/
theorem devReady_eq (s : State) : s.devReady = (s.bus.selected &&
    !(((s.bus.obsSeen || s.bus.cbsSeen) && decide (4 ≤ s.bus.ioOffset.toNat)) ||
      (decide (1 ≤ s.bus.ioOffset.toNat) && s.bus.rbi.getLsbD (s.bus.ioOffset.toNat - 1)))) := rfl

/-- Settles O60: by the range of the offset, in `devReady_eq`. -/
theorem devReadyFollowsTheTable : Obligations.DevReadyFollowsTheTable := by
  intro s n
  rw [devReady_eq]
  refine ⟨fun h => ?_, fun hsel h0 => ?_, fun hsel h1 h3 => ?_, fun hsel h4 hobs hcbs => ?_, fun hsel h4 hstrobe => ?_⟩
  · exact (Bool.and_eq_true_iff.1 h).1
  · rw [hsel, decide_eq_false (show ¬4 ≤ n by omega), decide_eq_false (show ¬1 ≤ n by omega), Bool.and_false]; rfl
  · rw [hsel, decide_eq_false (show ¬4 ≤ n by omega), decide_eq_true (show 1 ≤ n from h1), Bool.and_false]; rfl
  · rw [hsel, hobs, hcbs, decide_eq_true (show 1 ≤ n by omega)]; rfl
  · rw [hsel, decide_eq_true (show 4 ≤ n from h4), Bool.or_eq_true_iff.2 hstrobe]; rfl

end Sys2Proof.Machine

/-! What an instruction may change, over all instructions (10_state.md R23, R27 to R32; 20_memory.md R60, R71): read off the
statement of each family, and the statements O51 to O54. -/

namespace Sys2Proof.Machine

/-! ### The columns of the tables -/

/-- The ALU group (R27). -/
def InAluGroup (i : Instr) : Prop := (∃ op r, i = .aluR op r) ∨ (∃ op, i = .aluM op) ∨ (∃ op v, i = .aluI op v)

/-- INR and DCR (R27). -/
def CountsByOne (i : Instr) : Prop := (∃ r, i = .inrR r) ∨ (∃ r, i = .dcrR r) ∨ i = .inrM ∨ i = .dcrM

/-- The instructions that write CY and no other flag (R27). -/
def WritesCarryOnly (i : Instr) : Prop := (∃ p, i = .dad p) ∨ i ∈ [.rlc, .rrc, .ral, .rar, .stc, .cmc]

/-- The instructions that write `SP` (R23). -/
def WritesSp (i : Instr) : Prop :=
  (∃ v, i = .lxiSP v) ∨ i ∈ [.sphl, .inxSP, .dcxSP] ∨ (∃ p, i = .push p ∨ i = .pop p) ∨ (∃ addr, i = .call addr) ∨
  (∃ cond addr, i = .callCond cond addr) ∨ i = .ret ∨ (∃ cond, i = .retCond cond) ∨ ∃ n, i = .rst n

/-- The flags `g` after the instruction differ from `f` in its columns only. -/
structure FlagsWithin (i : Instr) (f g : Flags) : Prop where
  szp : (g.sign, g.zero, g.parity) ≠ (f.sign, f.zero, f.parity) → InAluGroup i ∨ CountsByOne i ∨ i = .daa ∨ i = .popPSW
  auxCarry : g.auxCarry ≠ f.auxCarry → InAluGroup i ∨ CountsByOne i ∨ i = .daa ∨ i = .popPSW
  carry : g.carry ≠ f.carry → InAluGroup i ∨ WritesCarryOnly i ∨ i = .daa ∨ i = .popPSW

section Flags
variable {i : Instr} {f g : Flags}

theorem FlagsWithin.same (h : g = f) : FlagsWithin i f g := by
  subst h
  exact ⟨fun hne => absurd rfl hne, fun hne => absurd rfl hne, fun hne => absurd rfl hne⟩

theorem FlagsWithin.carryOnly (h : g = { f with carry := g.carry }) (hi : WritesCarryOnly i) : FlagsWithin i f g := by
  refine ⟨fun hne => absurd ?_ hne, fun hne => absurd ?_ hne, fun _ => .inr (.inl hi)⟩ <;> rw [h]

theorem FlagsWithin.count (h : g.carry = f.carry) (hi : CountsByOne i) : FlagsWithin i f g :=
  ⟨fun _ => .inr (.inl hi), fun _ => .inr (.inl hi), fun hne => absurd h hne⟩

theorem FlagsWithin.alu (hi : InAluGroup i) : FlagsWithin i f g := ⟨fun _ => .inl hi, fun _ => .inl hi, fun _ => .inl hi⟩

theorem FlagsWithin.all (hi : i = .daa ∨ i = .popPSW) : FlagsWithin i f g :=
  ⟨fun _ => .inr (.inr hi), fun _ => .inr (.inr hi), fun _ => .inr (.inr hi)⟩

end Flags

/-- `inte`, `ei_shadow` and `halted` change by EI, DI and HLT only (R28 to R30). -/
structure ControlWithin (i : Instr) (s t : State) : Prop where
  inte : t.inte ≠ s.inte → (i = .ei ∧ t.inte = true) ∨ (i = .di ∧ t.inte = false)
  eiShadow : t.eiShadow ≠ s.eiShadow → i = .ei ∧ t.eiShadow = true
  halted : t.halted ≠ s.halted → i = .hlt ∧ t.halted = true

theorem ControlWithin.same {i : Instr} {s t : State} (hinte : t.inte = s.inte) (hshadow : t.eiShadow = s.eiShadow)
    (hhalted : t.halted = s.halted) : ControlWithin i s t :=
  ⟨fun hne => absurd hinte hne, fun hne => absurd hshadow hne, fun hne => absurd hhalted hne⟩

/-- From `s` to `t` the instruction changes flags, `SP`, control bits and memory as the tables allow it. -/
structure WithinTables (i : Instr) (s t : State) : Prop where
  flags : FlagsWithin i s.flags t.flags
  sp : t.sp ≠ s.sp → WritesSp i
  control : ControlWithin i s t
  memory : MemSameBut (storeAddresses i s) s t

section Within
variable {i : Instr} {reads writes : List Word} {n : Nat} {s t w : State}

/-- From the frame of an instruction and what it does to the flags and `SP`. -/
theorem WithinTables.of_frame (hframe : InstrFrame reads writes n s t) (hwrites : writes = [] ∨ storeAddresses i s = writes)
    (hflags : FlagsWithin i s.flags t.flags) (hsp : t.sp ≠ s.sp → WritesSp i) : WithinTables i s t where
  flags := hflags
  sp := hsp
  control := .same hframe.control.inte hframe.control.eiShadow hframe.control.halted
  memory := by
    rcases hwrites with rfl | hwrites
    · exact fun a _ => hframe.memory a List.not_mem_nil
    · rw [hwrites]; exact hframe.memory

/-- The same where flags and `SP` stay. -/
theorem WithinTables.of_same (hframe : InstrFrame reads writes n s t) (hwrites : writes = [] ∨ storeAddresses i s = writes)
    (hflags : t.flags = s.flags) (hsp : t.sp = s.sp) : WithinTables i s t :=
  .of_frame hframe hwrites (.same hflags) fun hne => absurd hsp hne

/-- The same for an instruction that stores nothing and starts at the state `w` a port operation or a fault record leads to. -/
theorem WithinTables.of_coreSame (hcore : CoreSame s w) (hsame : StackPcFlagsSame s t) (hframe : InstrFrame [] [] n w t) :
    WithinTables i s t where
  flags := .same hsame.flags
  sp hne := absurd hsame.sp hne
  control := .same (hframe.control.inte.trans hcore.inte) (hframe.control.eiShadow.trans hcore.eiShadow)
    (hframe.control.halted.trans hcore.halted)
  memory a _ := (hframe.memory a List.not_mem_nil).trans (hcore.peek a)

/-- An instruction that leaves all pairs but `p` alone writes `SP` only where `p` is `SP`. -/
theorem writesSp_of_pairs {p : RegPair} (hpairs : ∀ q, q ≠ p → t.pair q = s.pair q) (hi : p = .sp → WritesSp i)
    (hne : t.sp ≠ s.sp) : WritesSp i :=
  hi (Classical.byContradiction fun hp => hne (hpairs .sp (Ne.symm hp)))

/-- The rotates, CMC and STC: a write of A and CY. -/
theorem setA_carry_within (hi : WritesCarryOnly i) (v : Byte) (cy : Bool) (s : State) :
    WithinTables i s { s with a := v, flags := { s.flags with carry := cy }, opCycles := 4 } := by
  obtain ⟨-, -, -, -, hframe⟩ := setA_carry_done v cy s
  exact .of_frame hframe (.inl rfl) (.carryOnly rfl hi) fun hne => absurd rfl hne

end Within

/-- Every instruction keeps within the tables, by the statement of its family. -/
theorem exec_withinTables (i : Instr) (s : State) : ∃ t, exec i s = .next t ∧ WithinTables i s t := by
  obtain ⟨hmovRM, hlda, hldax⟩ := loadsReadTheByte s
  obtain ⟨hmovMR, hmviM, hsta, hstax⟩ := storesWriteTheByte s
  obtain ⟨hmviR, hlxi, -, hxchg⟩ := immediatesAndExchangeLoadRegisters s
  obtain ⟨hjmp, hjumpCond, -, hpchl⟩ := jumpsGoToTheAddress s
  obtain ⟨hcall, hcallCond, hrst⟩ := callsPushTheReturnAddress s
  obtain ⟨-, hret, hretCond⟩ := returnsPopTheReturnAddress s
  cases Instr.inFamily i with
  | movRR dst src =>
    obtain ⟨-, t, ht, -, -, hsame, hframe⟩ := movCopiesTheSource dst src s
    exact ⟨t, ht, .of_same hframe (.inl rfl) hsame.flags hsame.sp⟩
  | movRM dst =>
    obtain ⟨-, t, ht, -, -, hsame, hframe⟩ := hmovRM dst
    exact ⟨t, ht, .of_same hframe (.inl rfl) hsame.flags hsame.sp⟩
  | lda addr =>
    obtain ⟨-, t, ht, -, -, hsame, hframe⟩ := hlda addr
    exact ⟨t, ht, .of_same hframe (.inl rfl) hsame.flags hsame.sp⟩
  | ldax p =>
    obtain ⟨-, t, ht, -, -, hsame, hframe⟩ := hldax p
    exact ⟨t, ht, .of_same hframe (.inl rfl) hsame.flags hsame.sp⟩
  | movMR src =>
    obtain ⟨-, t, ht, -, -, hsame, hframe⟩ := hmovMR src
    exact ⟨t, ht, .of_same hframe (.inr (storeAddresses_movMR src s)) hsame.flags hsame.sp⟩
  | mviM imm =>
    obtain ⟨-, t, ht, -, -, hsame, hframe⟩ := hmviM imm
    exact ⟨t, ht, .of_same hframe (.inr (storeAddresses_mviM imm s)) hsame.flags hsame.sp⟩
  | sta addr =>
    obtain ⟨-, t, ht, -, -, hsame, hframe⟩ := hsta addr
    exact ⟨t, ht, .of_same hframe (.inr (storeAddresses_sta addr s)) hsame.flags hsame.sp⟩
  | stax p =>
    obtain ⟨-, t, ht, -, -, hsame, hframe⟩ := hstax p
    exact ⟨t, ht, .of_same hframe (.inr (storeAddresses_stax p s)) hsame.flags hsame.sp⟩
  | mviR dst imm =>
    obtain ⟨-, t, ht, -, -, hsame, hframe⟩ := hmviR dst imm
    exact ⟨t, ht, .of_same hframe (.inl rfl) hsame.flags hsame.sp⟩
  | lxi p imm =>
    obtain ⟨-, t, ht, -, hpairs, -, -, hflags, hframe⟩ := hlxi p imm
    exact ⟨t, ht, .of_frame hframe (.inl rfl) (.same hflags) (writesSp_of_pairs hpairs fun hp => .inl ⟨imm, hp ▸ rfl⟩)⟩
  | xchg =>
    obtain ⟨t, ht, -, -, -, hsame, hframe⟩ := hxchg
    exact ⟨t, ht, .of_same hframe (.inl rfl) hsame.flags hsame.sp⟩
  | lhld addr =>
    obtain ⟨-, ⟨t, ht, -, -, -, hsame, hframe⟩, -⟩ := directPairTransfers addr s
    exact ⟨t, ht, .of_same hframe (.inl rfl) hsame.flags hsame.sp⟩
  | shld addr =>
    obtain ⟨-, -, -, t, ht, -, -, -, hsame, hframe⟩ := directPairTransfers addr s
    exact ⟨t, ht, .of_same hframe (.inr (storeAddresses_shld addr s)) hsame.flags hsame.sp⟩
  | aluR op r =>
    obtain ⟨-, t, ht, -, -, hsp, -, hframe⟩ := aluWithRegister op r s
    exact ⟨t, ht, .of_frame hframe (.inl rfl) (.alu (.inl ⟨op, r, rfl⟩)) fun hne => absurd hsp hne⟩
  | aluM op =>
    obtain ⟨-, t, ht, -, -, hsp, -, hframe⟩ := aluWithMemory op s
    exact ⟨t, ht, .of_frame hframe (.inl rfl) (.alu (.inr (.inl ⟨op, rfl⟩))) fun hne => absurd hsp hne⟩
  | aluI op imm =>
    obtain ⟨-, t, ht, -, -, hsp, -, hframe⟩ := aluWithImmediate op imm s
    exact ⟨t, ht, .of_frame hframe (.inl rfl) (.alu (.inr (.inr ⟨op, imm, rfl⟩))) fun hne => absurd hsp hne⟩
  | inrR r =>
    obtain ⟨-, ⟨t, ht, -, -, -, hcarry, -, hsp, -, hframe⟩, -⟩ := incrementDecrementRegister r s
    exact ⟨t, ht, .of_frame hframe (.inl rfl) (.count hcarry (.inl ⟨r, rfl⟩)) fun hne => absurd hsp hne⟩
  | dcrR r =>
    obtain ⟨-, -, -, t, ht, -, -, -, hcarry, -, hsp, -, hframe⟩ := incrementDecrementRegister r s
    exact ⟨t, ht, .of_frame hframe (.inl rfl) (.count hcarry (.inr (.inl ⟨r, rfl⟩))) fun hne => absurd hsp hne⟩
  | inrM =>
    obtain ⟨-, ⟨t, v, ht, -, -, -, -, hcarry, -, hsp, -, hframe⟩, -⟩ := incrementDecrementMemory s
    exact ⟨t, ht, .of_frame hframe (.inr (storeAddresses_inrM s)) (.count hcarry (.inr (.inr (.inl rfl))))
      fun hne => absurd hsp hne⟩
  | dcrM =>
    obtain ⟨-, -, -, t, v, ht, -, -, -, -, hcarry, -, hsp, -, hframe⟩ := incrementDecrementMemory s
    exact ⟨t, ht, .of_frame hframe (.inr (storeAddresses_dcrM s)) (.count hcarry (.inr (.inr (.inr rfl))))
      fun hne => absurd hsp hne⟩
  | inx p =>
    obtain ⟨-, ⟨t, ht, -, hpairs, -, hflags, -, hframe⟩, -⟩ := pairArithmetic p s
    exact ⟨t, ht, .of_frame hframe (.inl rfl) (.same hflags)
      (writesSp_of_pairs hpairs fun hp => .inr (.inl (hp ▸ .tail _ (.head _))))⟩
  | dcx p =>
    obtain ⟨-, -, -, ⟨t, ht, -, hpairs, -, hflags, -, hframe⟩, -⟩ := pairArithmetic p s
    exact ⟨t, ht, .of_frame hframe (.inl rfl) (.same hflags)
      (writesSp_of_pairs hpairs fun hp => .inr (.inl (hp ▸ .tail _ (.tail _ (.head _)))))⟩
  | dad p =>
    obtain ⟨-, -, -, -, -, t, ht, -, hflags, -, hsp, -, hframe⟩ := pairArithmetic p s
    exact ⟨t, ht, .of_frame hframe (.inl rfl) (.carryOnly hflags (.inl ⟨p, rfl⟩)) fun hne => absurd hsp hne⟩
  | daa =>
    obtain ⟨-, t, -, ht, -, -, -, -, -, -, -, -, -, hsp, -, hframe⟩ := daaCorrects s
    exact ⟨t, ht, .of_frame hframe (.inl rfl) (.all (.inl rfl)) fun hne => absurd hsp hne⟩
  | rlc => exact ⟨_, rfl, setA_carry_within (.inr (.head _)) _ _ s⟩
  | rrc => exact ⟨_, rfl, setA_carry_within (.inr (.tail _ (.head _))) _ _ s⟩
  | ral => exact ⟨_, rfl, setA_carry_within (.inr (.tail _ (.tail _ (.head _)))) _ _ s⟩
  | rar => exact ⟨_, rfl, setA_carry_within (.inr (.tail _ (.tail _ (.tail _ (.head _))))) _ _ s⟩
  | stc => exact ⟨_, rfl, setA_carry_within (.inr (.tail _ (.tail _ (.tail _ (.tail _ (.head _)))))) _ _ s⟩
  | cmc => exact ⟨_, rfl, setA_carry_within (.inr (.tail _ (.tail _ (.tail _ (.tail _ (.tail _ (.head _))))))) _ _ s⟩
  | cma =>
    obtain ⟨hflags, -, hsp, -, hframe⟩ := setA_carry_done (~~~s.a) s.flags.carry s
    exact ⟨_, rfl, .of_same hframe (.inl rfl) hflags hsp⟩
  | jmp addr =>
    obtain ⟨-, t, ht, -, -, hflags, hsp, hframe⟩ := hjmp addr
    exact ⟨t, ht, .of_same hframe (.inl rfl) hflags hsp⟩
  | jumpCond cond addr =>
    obtain ⟨-, t, ht, -, -, hflags, hsp, hframe⟩ := hjumpCond cond addr
    exact ⟨t, ht, .of_same hframe (.inl rfl) hflags hsp⟩
  | pchl =>
    obtain ⟨t, ht, -, -, hflags, hsp, hframe⟩ := hpchl
    exact ⟨t, ht, .of_same hframe (.inl rfl) hflags hsp⟩
  | call addr =>
    obtain ⟨-, t, ht, -, -, -, -, -, hflags, hframe⟩ := hcall addr
    exact ⟨t, ht, .of_frame hframe (.inr (storeAddresses_call addr s)) (.same hflags)
      fun _ => .inr (.inr (.inr (.inl ⟨addr, rfl⟩)))⟩
  | callCond cond addr =>
    have hwrites := storeAddresses_callCond cond addr s
    rw [condHolds_eq_condTrue] at hwrites
    have hsp : WritesSp (.callCond cond addr) := .inr (.inr (.inr (.inr (.inl ⟨cond, addr, rfl⟩))))
    obtain ⟨-, t, ht, hcases⟩ := hcallCond cond addr
    by_cases h : condTrue cond s.flags = true
    · rw [if_pos h] at hcases hwrites
      obtain ⟨-, -, -, -, -, hflags, hframe⟩ := hcases
      exact ⟨t, ht, .of_frame hframe (.inr hwrites) (.same hflags) fun _ => hsp⟩
    · rw [if_neg h] at hcases
      obtain ⟨-, hsame, hframe⟩ := hcases
      exact ⟨t, ht, .of_same hframe (.inl rfl) hsame.flags hsame.sp⟩
  | rst k =>
    obtain ⟨-, t, ht, -, -, -, -, -, hflags, hframe⟩ := hrst k
    exact ⟨t, ht, .of_frame hframe (.inr (storeAddresses_rst k s)) (.same hflags)
      fun _ => .inr (.inr (.inr (.inr (.inr (.inr (.inr ⟨k, rfl⟩))))))⟩
  | ret =>
    obtain ⟨t, ht, -, -, -, hflags, hframe⟩ := hret
    exact ⟨t, ht, .of_frame hframe (.inl rfl) (.same hflags) fun _ => .inr (.inr (.inr (.inr (.inr (.inl rfl)))))⟩
  | retCond cond =>
    have hsp : WritesSp (.retCond cond) := .inr (.inr (.inr (.inr (.inr (.inr (.inl ⟨cond, rfl⟩))))))
    obtain ⟨-, t, ht, hcases⟩ := hretCond cond
    by_cases h : condTrue cond s.flags = true
    · rw [if_pos h] at hcases
      obtain ⟨-, -, -, hflags, hframe⟩ := hcases
      exact ⟨t, ht, .of_frame hframe (.inl rfl) (.same hflags) fun _ => hsp⟩
    · rw [if_neg h] at hcases
      obtain ⟨-, hsame, hframe⟩ := hcases
      exact ⟨t, ht, .of_same hframe (.inl rfl) hsame.flags hsame.sp⟩
  | push p =>
    obtain ⟨-, t, ht, -, -, -, -, hflags, -, hframe⟩ := pushStoresThePair p s
    exact ⟨t, ht, .of_frame hframe (.inr (storeAddresses_push p s)) (.same hflags)
      fun _ => .inr (.inr (.inl ⟨p, .inl rfl⟩))⟩
  | pop p =>
    have hsp : WritesSp (.pop p) := .inr (.inr (.inl ⟨p, .inr rfl⟩))
    obtain ⟨-, t, ht, -, -, hframe, hcases⟩ := popLoadsThePair p s
    cases p with
    | bc | de | hl =>
      obtain ⟨-, -, -, hflags⟩ := hcases
      exact ⟨t, ht, .of_frame hframe (.inl rfl) (.same hflags) fun _ => hsp⟩
    | psw => exact ⟨t, ht, .of_frame hframe (.inl rfl) (.all (.inr rfl)) fun _ => hsp⟩
  | xthl =>
    obtain ⟨-, ⟨t, ht, -, -, -, -, -, hsame, hframe⟩, -⟩ := stackTopExchange s
    exact ⟨t, ht, .of_same hframe (.inr (storeAddresses_xthl s)) hsame.flags hsame.sp⟩
  | sphl =>
    obtain ⟨-, -, -, t, ht, -, -, hflags, -, hframe⟩ := stackTopExchange s
    exact ⟨t, ht, .of_frame hframe (.inl rfl) (.same hflags) fun _ => .inr (.inl (.head _))⟩
  | inPort port =>
    obtain ⟨t, ht, -, -, hsame, hframe⟩ := inPort_done (port := port) (s := s) rfl
    exact ⟨t, ht, .of_coreSame (portRead_coreSame port s) hsame hframe⟩
  | outPort port =>
    obtain ⟨t, ht, -, hsame, hframe⟩ := outPort_done (port := port) (s := s) rfl
    exact ⟨t, ht, .of_coreSame (portWrite_coreSame port s.a s) hsame hframe⟩
  | ei =>
    refine ⟨_, rfl, .same rfl, fun hne => absurd rfl hne, ⟨fun _ => .inl ⟨rfl, rfl⟩, fun _ => ⟨rfl, rfl⟩, ?_⟩, fun _ _ => rfl⟩
    exact fun hne => absurd rfl hne
  | di =>
    refine ⟨_, rfl, .same rfl, fun hne => absurd rfl hne, ⟨fun _ => .inr ⟨rfl, rfl⟩, ?_, ?_⟩, fun _ _ => rfl⟩
    · exact fun hne => absurd rfl hne
    · exact fun hne => absurd rfl hne
  | hlt =>
    refine ⟨_, rfl, .same rfl, fun hne => absurd rfl hne, ⟨?_, ?_, fun _ => ⟨rfl, rfl⟩⟩, fun _ _ => rfl⟩
    · exact fun hne => absurd rfl hne
    · exact fun hne => absurd rfl hne
  | nop =>
    obtain ⟨-, -, -, -, t, ht, -, hsame, hframe⟩ := machineControl s
    exact ⟨t, ht, .of_same hframe (.inl rfl) hsame.flags hsame.sp⟩
  | illegal x =>
    obtain ⟨-, t, ht, -, -, -, hsame, hframe⟩ := illegalOpcodesAreRecorded x s
    exact ⟨t, ht, .of_coreSame (.intro ⟨_, _, _, _, _, _, _, rfl⟩) hsame hframe⟩

theorem exec_within {i : Instr} {s t : State} (h : exec i s = .next t) : WithinTables i s t := by
  obtain ⟨t', h', hwithin⟩ := exec_withinTables i s
  rw [h] at h'
  cases h'
  exact hwithin

/-- An instruction is at most a port operation, which leaves the core alone, and a core update, which leaves the card alone. -/
theorem exec_port_then_core {i : Instr} {s t : State} (h : exec i s = .next t) : ∃ w, CoreSame s w ∧ CoreUpdate w t := by
  obtain ⟨t', h', hcases⟩ := exec_update i s
  rw [h] at h'
  cases h'
  rcases hcases with ⟨-, hu⟩ | ⟨port, -, hu⟩ | ⟨port, -, hu⟩
  · exact ⟨s, .intro ⟨_, _, _, _, _, _, _, rfl⟩, hu⟩
  · exact ⟨_, portRead_coreSame port s, hu⟩
  · exact ⟨_, portWrite_coreSame port s.a s, hu⟩

/-! ### The statements -/

/-- Settles O51: the columns of the flags. -/
theorem flagsChangeOnlyAsListed : Obligations.FlagsChangeOnlyAsListed := by
  intro i s t h alu count carryOnly
  obtain ⟨hszp, hauxCarry, hcarry⟩ := (exec_within h).flags
  exact ⟨hszp, hauxCarry, hcarry⟩

/-- Settles O52: the columns of `SP` and the control bits; the request latch and the cycle counter are neither a port
operation's nor a core update's. -/
theorem controlChangesOnlyAsListed : Obligations.ControlChangesOnlyAsListed := by
  intro i s t h
  obtain ⟨-, hsp, ⟨hinte, hshadow, hhalted⟩, -⟩ := exec_within h
  obtain ⟨w, hw, hu⟩ := exec_port_then_core h
  exact ⟨hinte, hshadow, hhalted, hu.intReq.trans hw.intReq, hu.intVec.trans hw.intVec, hu.cyc.trans hw.cyc, hsp⟩

/-- Settles O53: the bytes of the access table; outside RAM no byte changes at all. -/
theorem onlyListedBytesAreStored : Obligations.OnlyListedBytesAreStored := by
  intro i s t a h hne
  obtain ⟨w, hw, hu⟩ := exec_port_then_core h
  refine ⟨Classical.byContradiction fun ha => hne ((exec_within h).memory a ha), regionOf_eq_ram.1 ?_⟩
  exact Classical.byContradiction fun ha => hne ((hu.peek_rom ha).trans (hw.peek a))

/-- Settles O54: without a port operation an instruction is a core update, and a port operation does not move the clock. -/
theorem onlyPortsReachTheCard : Obligations.OnlyPortsReachTheCard := by
  intro i s t h
  obtain ⟨w, hw, hu⟩ := exec_port_then_core h
  refine ⟨(congrArg Scheduler.now hu.card.sched).trans hw.now, fun hport => ?_⟩
  obtain ⟨t', h', hcases⟩ := exec_update i s
  rw [h] at h'
  cases h'
  rcases hcases with ⟨-, hu⟩ | ⟨port, hi, -⟩ | ⟨port, hi, -⟩
  · exact hu.card
  · exact absurd hi (hport port).1
  · exact absurd hi (hport port).2

end Sys2Proof.Machine
